-- ==== Sys2Proof/Word.lean ====
section
/-! DEFINITION. The word types of the machine: bytes and 16-bit addresses (spec/00_scope.md R5, R8). -/

namespace Sys2Proof

/-- An 8-bit quantity: registers A, X, Y, SP, PSW, every memory byte (R5). -/
abbrev Byte := BitVec 8

/-- A 16-bit quantity: the program counter, an address, the pair YA (R5, R23). -/
abbrev Word := BitVec 16

end Sys2Proof
end

