-- ==== Sys2Proof/Config.lean ====
section
/-! DEFINITION. What an implementation fixes: the open parameters of spec/00_scope.md R7 and
spec/92_eei_decisions.md, and the free values. An `opaque` constant has no body: no proof can see its
value, so whatever is proved holds for every value of it. -/

namespace Sys2Proof

/-- The decoded triple of an `M.bit` operand: byte address, bit number, and whether the `B`
(complemented-bit) mnemonic is meant (R127, R231). -/
structure MBit where
  addr   : Word
  bit    : BitVec 3
  invert : Bool
deriving DecidableEq, Repr, Inhabited

/-- The two readings of the half carry of ADDW and SUBW (R211, parameter `WORD_H_RULE`). -/
inductive WordHRule where
  | bit11
  | bit3
deriving DecidableEq, Repr, Inhabited

/-- The two readings of the zero flag of MUL (R160, parameter `MUL_Z_WIDTH`). -/
inductive MulZWidth where
  | product
  | highByte
deriving DecidableEq, Repr, Inhabited

/-- Which of the two transfers TXA and TXSP writes N and Z (R192, R193, parameter `TXA_TXSP_FLAGS`). -/
inductive FlaggedTransfer where
  | txa
  | txsp
deriving DecidableEq, Repr, Inhabited

/-- What `DIV_FN` answers: A, Y and the flags DIV writes but V, which R155 sets to 1 itself (R155, D13). -/
structure DivResult where
  a : Byte
  y : Byte
  n : Bool
  h : Bool
  z : Bool
deriving DecidableEq, Repr, Inhabited

/-- The edge an external interrupt input responds to (R408). -/
inductive EdgeSelect where
  | none
  | falling
  | rising
  | both
deriving DecidableEq, Repr, Inhabited

/-- What `ADEN_SEMANTICS` says of the converter while ADEN = 0 (R510, R512, D42). Log entry 49. -/
structure AdenSemantics where
  /-- A write of ADST = 1 with ADEN = 0 starts a conversion. -/
  starts    : Bool
  /-- A write of ADEN = 0 keeps a conversion in progress. -/
  keeps     : Bool
  /-- A conversion may complete while ADEN = 0. -/
  completes : Bool
deriving DecidableEq, Repr, Inhabited

/-- What a power failure does while the detector is enabled (R520, R521). -/
inductive PowerFailAction where
  | reset
  | clockHalt
  | ignored
deriving DecidableEq, Repr, Inhabited

/-- What `PFDR_SEMANTICS` says: each field as a function of PFDR[3:0] = PFDOPR, PFDIS, PFDM, PFDS as held (R520, R521).
Log entry 12. -/
structure PfdrSemantics where
  /-- What a power failure does; asked only while PFDIS = 0. -/
  action              : BitVec 4 → PowerFailAction
  /-- PFDS after a power failure that does not reset the MCU. -/
  statusAfterFailure  : BitVec 4 → Bool
  /-- PFDS after the supply has recovered. -/
  statusAfterRecovery : BitVec 4 → Bool
deriving Inhabited

namespace Config

/-- The free values: the n-th value the manual leaves open in a run. Plain counter `State.draws` says
which is next (`draw(n)` of R10). Log entry 1. -/
opaque freeByte : Nat → Byte

/-- What a RAM byte nothing has written since the given power-on reads as (R61, U2). Log entry 2. -/
opaque powerOnByte : Nat → Nat → Byte

/-- What a program-memory byte the user did not program reads as (R65, N7, U47). Log entry 3. -/
opaque unprogrammedByte : Nat → Byte

/-- `MBIT_DECODE`: the layout of the two operand bytes of the `M.bit` instructions (R127, D8).
Log entry 4. -/
opaque mbitDecode : Byte → Byte → MBit

/-- `ABIT_DECODE`: the layout of the operand byte of SETA1 and CLRA1 (R126, D8). Log entry 5. -/
opaque abitDecode : Byte → BitVec 3

/-- `MUL_Z_WIDTH`: 16 is `product`, 8 is `highByte`, and `none` is the case where no value is
supplied and Z is a free value on the products the two readings disagree on (R160, D14). Log entry 7. -/
opaque mulZWidth : Option MulZWidth

/-- `WORD_H_RULE`: `none` where no value is supplied and H is a free value on the operands the two readings
disagree on (R211, R217, D15). Log entry 8. -/
opaque wordHRule : Option WordHRule

/-- `STOP_WAKE_NEEDS_IEN`: `none` where no value is supplied and a flag whose enable bit is clear may release
the mode or not (R437, D28). Log entry 9. -/
opaque stopWakeNeedsIen : Option Bool

/-- `IEDS_ENCODING` of the two bits IEDxH:IEDxL (R408, D33). Log entry 10. -/
opaque iedsEncoding : BitVec 2 → EdgeSelect

/-- `Runs(TxCN, TxST)` of `TxCN_TxST_SEMANTICS` where the text does not settle it: (0,1) and (1,0)
(R494, D33). Log entry 11. -/
opaque timerRunsOpen : Bool → Bool → Bool

/-- `Starts(old CN, old ST, new CN, new ST)` of `TxCN_TxST_SEMANTICS`, but for the one case the text
settles (R494, D33). Log entry 11. -/
opaque timerStartsOpen : Bool → Bool → Bool → Bool → Bool

/-- `PFDR_SEMANTICS`: `none` where no value is supplied; then a power failure resets the MCU or halts the system clock,
either may happen, and PFDS reads as a free value (R520, R521, D33). Log entry 12. -/
opaque pfdrSemantics : Option PfdrSemantics

/-- `ADEN_SEMANTICS`: `none` where no value is supplied; then a conversion starts, goes on and completes whatever ADEN
holds (R510, R512, D33, D42). Log entry 49. -/
opaque adenSemantics : Option AdenSemantics

/-- `BUCK_ENCODING`: the prescaler ratio of the buzzer for BUCK1:BUCK0 (R500, D33). No state of the
machine depends on it. Log entry 13. -/
opaque buckEncoding : BitVec 2 → Nat

/-- The level of the PWM pin where the period is less than the duty (R497), as a function of the period
and the duty. Log entry 27. -/
opaque pwmOpenLevel : BitVec 10 → BitVec 10 → Bool

/-- `PSW_RESET`: 00H, the spec's default from general knowledge of the family (R47, D10). PRESUMED,
unsafe. Log entry 14. -/
def pswReset : Byte := 0x00

/-- `BRK_PUSHED_B`: whether the PSW byte BRK pushes has B = 1; `none` where no value is supplied, and then the spec's
default holds (R300, D17). Log entry 15. -/
opaque brkPushedB : Option Bool

/-- `DAA_FN`: A and C after DAA, from A, C and H; `none` where no function is supplied, and then the spec's default
holds (R151, D16). Log entry 29. -/
opaque daaFn : Option (Byte → Bool → Bool → Byte × Bool)

/-- `DAS_FN`: A and C after DAS, from A, C and H; `none` where no function is supplied, and then the spec's default
holds (R152, D16). Log entry 29. -/
opaque dasFn : Option (Byte → Bool → Bool → Byte × Bool)

/-- `DIV_FN` of YA and X where X = 0 or the quotient needs more than 8 bits; `none` where no function is supplied, and
then A, Y, N, Z and H are free values; V is 1 in either case (R155, D13). Log entry 6. -/
opaque divFn : Option (Word → Byte → DivResult)

/-- `TXA_TXSP_FLAGS`: which of TXA and TXSP writes N and Z; `none` where no value is supplied, and then the spec's
default holds (R192, R193, D18). Log entry 37. -/
opaque txaTxspFlags : Option FlaggedTransfer

end Config
end Sys2Proof
end

