-- ==== Sys2Proof/Machine/Bits.lean ====
section
/-! DEFINITION. Byte-order, bit-field and sign-extension helpers (spec/00_scope.md R8, R9). -/

namespace Sys2Proof.Machine

/-- `hi:lo`, high part first (R8). -/
def wordOf (hi lo : Byte) : Word := hi ++ lo

/-- Bits 7:0 of a 16-bit value (R8). -/
def loByte (w : Word) : Byte := w.extractLsb' 0 8

/-- Bits 15:8 of a 16-bit value (R8). -/
def hiByte (w : Word) : Byte := w.extractLsb' 8 8

/-- `zext_16` of a byte (R9). -/
def zext16 (b : Byte) : Word := b.setWidth 16

/-- `sext_8` of a displacement, as 16 bits (R9, R107). -/
def sext16 (b : Byte) : Word := b.signExtend 16

/-- A byte with bit `b` set and every other bit clear. -/
def bitMask (b : BitVec 3) : Byte := 1#8 <<< b.toNat

/-- Bit `b` of a byte. -/
def testBit (v : Byte) (b : BitVec 3) : Bool := v.getLsbD b.toNat

end Sys2Proof.Machine
end

