-- ==== Sys2Proof/Syntax.lean ====
section
/-! DEFINITION. The instructions: one constructor per row of spec/opcode_table.json, in the table's order.
Operands are raw encoded fields: `imm`, `dp`, `abs`, `rel`, `upage`, bit and table-call numbers (R104 to R128);
`b1 b2` are the operand bytes of the formats whose layout the manual does not give (R126, R127). -/

namespace Sys2Proof

inductive Instr where
  /-- `(unassigned)`, R131. -/
  | unassigned
  /-- `ADC #imm`, R144. -/
  | adcImm (imm : Byte)
  /-- `ADC dp`, R144. -/
  | adcDp (dp : Byte)
  /-- `ADC dp+X`, R144. -/
  | adcDpX (dp : Byte)
  /-- `ADC !abs`, R144. -/
  | adcAbs (abs : Word)
  /-- `ADC !abs+Y`, R144. -/
  | adcAbsY (abs : Word)
  /-- `ADC [dp+X]`, R144. -/
  | adcIndX (dp : Byte)
  /-- `ADC [dp]+Y`, R144. -/
  | adcIndY (dp : Byte)
  /-- `ADC {X}`, R144. -/
  | adcAtX
  /-- `SBC #imm`, R164. -/
  | sbcImm (imm : Byte)
  /-- `SBC dp`, R164. -/
  | sbcDp (dp : Byte)
  /-- `SBC dp+X`, R164. -/
  | sbcDpX (dp : Byte)
  /-- `SBC !abs`, R164. -/
  | sbcAbs (abs : Word)
  /-- `SBC !abs+Y`, R164. -/
  | sbcAbsY (abs : Word)
  /-- `SBC [dp+X]`, R164. -/
  | sbcIndX (dp : Byte)
  /-- `SBC [dp]+Y`, R164. -/
  | sbcIndY (dp : Byte)
  /-- `SBC {X}`, R164. -/
  | sbcAtX
  /-- `CMP #imm`, R147. -/
  | cmpImm (imm : Byte)
  /-- `CMP dp`, R147. -/
  | cmpDp (dp : Byte)
  /-- `CMP dp+X`, R147. -/
  | cmpDpX (dp : Byte)
  /-- `CMP !abs`, R147. -/
  | cmpAbs (abs : Word)
  /-- `CMP !abs+Y`, R147. -/
  | cmpAbsY (abs : Word)
  /-- `CMP [dp+X]`, R147. -/
  | cmpIndX (dp : Byte)
  /-- `CMP [dp]+Y`, R147. -/
  | cmpIndY (dp : Byte)
  /-- `CMP {X}`, R147. -/
  | cmpAtX
  /-- `OR #imm`, R161. -/
  | orImm (imm : Byte)
  /-- `OR dp`, R161. -/
  | orDp (dp : Byte)
  /-- `OR dp+X`, R161. -/
  | orDpX (dp : Byte)
  /-- `OR !abs`, R161. -/
  | orAbs (abs : Word)
  /-- `OR !abs+Y`, R161. -/
  | orAbsY (abs : Word)
  /-- `OR [dp+X]`, R161. -/
  | orIndX (dp : Byte)
  /-- `OR [dp]+Y`, R161. -/
  | orIndY (dp : Byte)
  /-- `OR {X}`, R161. -/
  | orAtX
  /-- `AND #imm`, R145. -/
  | andImm (imm : Byte)
  /-- `AND dp`, R145. -/
  | andDp (dp : Byte)
  /-- `AND dp+X`, R145. -/
  | andDpX (dp : Byte)
  /-- `AND !abs`, R145. -/
  | andAbs (abs : Word)
  /-- `AND !abs+Y`, R145. -/
  | andAbsY (abs : Word)
  /-- `AND [dp+X]`, R145. -/
  | andIndX (dp : Byte)
  /-- `AND [dp]+Y`, R145. -/
  | andIndY (dp : Byte)
  /-- `AND {X}`, R145. -/
  | andAtX
  /-- `EOR #imm`, R156. -/
  | eorImm (imm : Byte)
  /-- `EOR dp`, R156. -/
  | eorDp (dp : Byte)
  /-- `EOR dp+X`, R156. -/
  | eorDpX (dp : Byte)
  /-- `EOR !abs`, R156. -/
  | eorAbs (abs : Word)
  /-- `EOR !abs+Y`, R156. -/
  | eorAbsY (abs : Word)
  /-- `EOR [dp+X]`, R156. -/
  | eorIndX (dp : Byte)
  /-- `EOR [dp]+Y`, R156. -/
  | eorIndY (dp : Byte)
  /-- `EOR {X}`, R156. -/
  | eorAtX
  /-- `LDA #imm`, R180. -/
  | ldaImm (imm : Byte)
  /-- `LDA dp`, R180. -/
  | ldaDp (dp : Byte)
  /-- `LDA dp+X`, R180. -/
  | ldaDpX (dp : Byte)
  /-- `LDA !abs`, R180. -/
  | ldaAbs (abs : Word)
  /-- `LDA !abs+Y`, R180. -/
  | ldaAbsY (abs : Word)
  /-- `LDA [dp+X]`, R180. -/
  | ldaIndX (dp : Byte)
  /-- `LDA [dp]+Y`, R180. -/
  | ldaIndY (dp : Byte)
  /-- `LDA {X}`, R180. -/
  | ldaAtX
  /-- `STA dp`, R185. -/
  | staDp (dp : Byte)
  /-- `STA dp+X`, R185. -/
  | staDpX (dp : Byte)
  /-- `STA !abs`, R185. -/
  | staAbs (abs : Word)
  /-- `STA !abs+Y`, R185. -/
  | staAbsY (abs : Word)
  /-- `STA [dp+X]`, R185. -/
  | staIndX (dp : Byte)
  /-- `STA [dp]+Y`, R185. -/
  | staIndY (dp : Byte)
  /-- `STA {X}`, R185. -/
  | staAtX
  /-- `LDM dp,#imm`, R182. -/
  | ldm (dp : Byte) (imm : Byte)
  /-- `LDA {X}+`, R181. -/
  | ldaAtXInc
  /-- `STA {X}+`, R186. -/
  | staAtXInc
  /-- `ASL A`, R146. -/
  | aslA
  /-- `ASL dp`, R146. -/
  | aslDp (dp : Byte)
  /-- `ASL dp+X`, R146. -/
  | aslDpX (dp : Byte)
  /-- `ASL !abs`, R146. -/
  | aslAbs (abs : Word)
  /-- `ROL A`, R162. -/
  | rolA
  /-- `ROL dp`, R162. -/
  | rolDp (dp : Byte)
  /-- `ROL dp+X`, R162. -/
  | rolDpX (dp : Byte)
  /-- `ROL !abs`, R162. -/
  | rolAbs (abs : Word)
  /-- `LSR A`, R159. -/
  | lsrA
  /-- `LSR dp`, R159. -/
  | lsrDp (dp : Byte)
  /-- `LSR dp+X`, R159. -/
  | lsrDpX (dp : Byte)
  /-- `LSR !abs`, R159. -/
  | lsrAbs (abs : Word)
  /-- `ROR A`, R163. -/
  | rorA
  /-- `ROR dp`, R163. -/
  | rorDp (dp : Byte)
  /-- `ROR dp+X`, R163. -/
  | rorDpX (dp : Byte)
  /-- `ROR !abs`, R163. -/
  | rorAbs (abs : Word)
  /-- `INC A`, R157. -/
  | incA
  /-- `INC dp`, R157. -/
  | incDp (dp : Byte)
  /-- `INC dp+X`, R157. -/
  | incDpX (dp : Byte)
  /-- `INC !abs`, R157. -/
  | incAbs (abs : Word)
  /-- `DEC A`, R153. -/
  | decA
  /-- `DEC dp`, R153. -/
  | decDp (dp : Byte)
  /-- `DEC dp+X`, R153. -/
  | decDpX (dp : Byte)
  /-- `DEC !abs`, R153. -/
  | decAbs (abs : Word)
  /-- `INC X`, R158. -/
  | incX
  /-- `INC Y`, R158. -/
  | incY
  /-- `DEC X`, R154. -/
  | decX
  /-- `DEC Y`, R154. -/
  | decY
  /-- `CMPX #imm`, R148. -/
  | cmpxImm (imm : Byte)
  /-- `CMPX dp`, R148. -/
  | cmpxDp (dp : Byte)
  /-- `CMPX !abs`, R148. -/
  | cmpxAbs (abs : Word)
  /-- `CMPY #imm`, R149. -/
  | cmpyImm (imm : Byte)
  /-- `CMPY dp`, R149. -/
  | cmpyDp (dp : Byte)
  /-- `CMPY !abs`, R149. -/
  | cmpyAbs (abs : Word)
  /-- `COM dp`, R150. -/
  | comDp (dp : Byte)
  /-- `DAA`, R151. -/
  | daa
  /-- `DAS`, R152. -/
  | das
  /-- `DIV`, R155. -/
  | div
  /-- `MUL`, R160. -/
  | mul
  /-- `TST dp`, R165. -/
  | tstDp (dp : Byte)
  /-- `XCN`, R166. -/
  | xcn
  /-- `LDX #imm`, R183. -/
  | ldxImm (imm : Byte)
  /-- `LDX dp`, R183. -/
  | ldxDp (dp : Byte)
  /-- `LDX dp+Y`, R183. -/
  | ldxDpY (dp : Byte)
  /-- `LDX !abs`, R183. -/
  | ldxAbs (abs : Word)
  /-- `LDY #imm`, R184. -/
  | ldyImm (imm : Byte)
  /-- `LDY dp`, R184. -/
  | ldyDp (dp : Byte)
  /-- `LDY dp+X`, R184. -/
  | ldyDpX (dp : Byte)
  /-- `LDY !abs`, R184. -/
  | ldyAbs (abs : Word)
  /-- `STX dp`, R187. -/
  | stxDp (dp : Byte)
  /-- `STX dp+Y`, R187. -/
  | stxDpY (dp : Byte)
  /-- `STX !abs`, R187. -/
  | stxAbs (abs : Word)
  /-- `STY dp`, R188. -/
  | styDp (dp : Byte)
  /-- `STY dp+X`, R188. -/
  | styDpX (dp : Byte)
  /-- `STY !abs`, R188. -/
  | styAbs (abs : Word)
  /-- `TAX`, R189. -/
  | tax
  /-- `TAY`, R190. -/
  | tay
  /-- `TSPX`, R191. -/
  | tspx
  /-- `TXA`, R192. -/
  | txa
  /-- `TXSP`, R193. -/
  | txsp
  /-- `TYA`, R194. -/
  | tya
  /-- `XAX`, R195. -/
  | xax
  /-- `XAY`, R196. -/
  | xay
  /-- `XMA dp`, R197. -/
  | xmaDp (dp : Byte)
  /-- `XMA dp+X`, R197. -/
  | xmaDpX (dp : Byte)
  /-- `XMA {X}`, R197. -/
  | xmaAtX
  /-- `XYX`, R198. -/
  | xyx
  /-- `ADDW dp`, R211. -/
  | addwDp (dp : Byte)
  /-- `CMPW dp`, R212. -/
  | cmpwDp (dp : Byte)
  /-- `DECW dp`, R213. -/
  | decwDp (dp : Byte)
  /-- `INCW dp`, R214. -/
  | incwDp (dp : Byte)
  /-- `LDYA dp`, R215. -/
  | ldyaDp (dp : Byte)
  /-- `STYA dp`, R216. -/
  | styaDp (dp : Byte)
  /-- `SUBW dp`, R217. -/
  | subwDp (dp : Byte)
  /-- `AND1 M.bit`, R233. -/
  | and1 (b1 : Byte) (b2 : Byte)
  /-- `AND1B M.bit`, R234. -/
  | and1b (b1 : Byte) (b2 : Byte)
  /-- `EOR1 M.bit`, R241. -/
  | eor1 (b1 : Byte) (b2 : Byte)
  /-- `EOR1B M.bit`, R242. -/
  | eor1b (b1 : Byte) (b2 : Byte)
  /-- `LDC M.bit`, R243. -/
  | ldc (b1 : Byte) (b2 : Byte)
  /-- `LDCB M.bit`, R244. -/
  | ldcb (b1 : Byte) (b2 : Byte)
  /-- `NOT1 M.bit`, R245. -/
  | not1 (b1 : Byte) (b2 : Byte)
  /-- `OR1 M.bit`, R246. -/
  | or1 (b1 : Byte) (b2 : Byte)
  /-- `OR1B M.bit`, R247. -/
  | or1b (b1 : Byte) (b2 : Byte)
  /-- `STC M.bit`, R252. -/
  | stc (b1 : Byte) (b2 : Byte)
  /-- `SETA1 A.bit`, R249. -/
  | seta1 (b1 : Byte)
  /-- `CLRA1 A.bit`, R237. -/
  | clra1 (b1 : Byte)
  /-- `BIT dp`, R235. -/
  | bitDp (dp : Byte)
  /-- `BIT !abs`, R235. -/
  | bitAbs (abs : Word)
  /-- `SET1 dp.bit`, R248. -/
  | set1 (bit : BitVec 3) (dp : Byte)
  /-- `CLR1 dp.bit`, R236. -/
  | clr1 (bit : BitVec 3) (dp : Byte)
  /-- `CLRC`, R238. -/
  | clrc
  /-- `CLRG`, R239. -/
  | clrg
  /-- `CLRV`, R240. -/
  | clrv
  /-- `SETC`, R250. -/
  | setc
  /-- `SETG`, R251. -/
  | setg
  /-- `TCLR1 !abs`, R253. -/
  | tclr1Abs (abs : Word)
  /-- `TSET1 !abs`, R254. -/
  | tset1Abs (abs : Word)
  /-- `BBC A.bit,rel`, R271. -/
  | bbcA (bit : BitVec 3) (rel : Byte)
  /-- `BBC dp.bit,rel`, R272. -/
  | bbcDp (bit : BitVec 3) (dp : Byte) (rel : Byte)
  /-- `BBS A.bit,rel`, R273. -/
  | bbsA (bit : BitVec 3) (rel : Byte)
  /-- `BBS dp.bit,rel`, R274. -/
  | bbsDp (bit : BitVec 3) (dp : Byte) (rel : Byte)
  /-- `BCC rel`, R275. -/
  | bcc (rel : Byte)
  /-- `BCS rel`, R276. -/
  | bcs (rel : Byte)
  /-- `BEQ rel`, R277. -/
  | beq (rel : Byte)
  /-- `BMI rel`, R278. -/
  | bmi (rel : Byte)
  /-- `BNE rel`, R279. -/
  | bne (rel : Byte)
  /-- `BPL rel`, R280. -/
  | bpl (rel : Byte)
  /-- `BVC rel`, R282. -/
  | bvc (rel : Byte)
  /-- `BVS rel`, R283. -/
  | bvs (rel : Byte)
  /-- `BRA rel`, R281. -/
  | bra (rel : Byte)
  /-- `CALL !abs`, R284. -/
  | callAbs (abs : Word)
  /-- `CALL [dp]`, R285. -/
  | callIndDp (dp : Byte)
  /-- `CBNE dp,rel`, R286. -/
  | cbneDp (dp : Byte) (rel : Byte)
  /-- `CBNE dp+X,rel`, R286. -/
  | cbneDpX (dp : Byte) (rel : Byte)
  /-- `DBNE dp,rel`, R287. -/
  | dbneDp (dp : Byte) (rel : Byte)
  /-- `DBNE Y,rel`, R287. -/
  | dbneY (rel : Byte)
  /-- `JMP !abs`, R288. -/
  | jmpAbs (abs : Word)
  /-- `JMP [!abs]`, R288. -/
  | jmpIndAbs (abs : Word)
  /-- `JMP [dp]`, R288. -/
  | jmpIndDp (dp : Byte)
  /-- `PCALL upage`, R289. -/
  | pcall (upage : Byte)
  /-- `TCALL n`, R290. -/
  | tcall (n : BitVec 4)
  /-- `BRK`, R300. -/
  | brk
  /-- `DI`, R301. -/
  | di
  /-- `EI`, R302. -/
  | ei
  /-- `NOP`, R303. -/
  | nop
  /-- `POP A`, R304. -/
  | popA
  /-- `POP X`, R305. -/
  | popX
  /-- `POP Y`, R306. -/
  | popY
  /-- `POP PSW`, R307. -/
  | popPsw
  /-- `PUSH A`, R308. -/
  | pushA
  /-- `PUSH X`, R309. -/
  | pushX
  /-- `PUSH Y`, R310. -/
  | pushY
  /-- `PUSH PSW`, R311. -/
  | pushPsw
  /-- `RET`, R312. -/
  | ret
  /-- `RETI`, R313. -/
  | reti
  /-- `STOP`, R314. -/
  | stop
deriving DecidableEq, Repr

end Sys2Proof
end

