-- ==== Sys2Proof/WellFormed.lean ====
section
/-! DEFINITION. Which terms of `Instr` an encoding can give. Every operand type has exactly the values its field
admits, so the only checks are the eight `M.bit` mnemonics that share an opcode in pairs: the plain form is the one
whose operand bytes decode to `invert` = false, the `B` form the one with `invert` = true (R127, R231). -/

namespace Sys2Proof

/-- The check under a given `MBIT_DECODE` layout. -/
def Instr.wellFormedIn (layout : Byte → Byte → MBit) : Instr → Bool
  | .unassigned => true
  | .adcImm _ => true
  | .adcDp _ => true
  | .adcDpX _ => true
  | .adcAbs _ => true
  | .adcAbsY _ => true
  | .adcIndX _ => true
  | .adcIndY _ => true
  | .adcAtX => true
  | .sbcImm _ => true
  | .sbcDp _ => true
  | .sbcDpX _ => true
  | .sbcAbs _ => true
  | .sbcAbsY _ => true
  | .sbcIndX _ => true
  | .sbcIndY _ => true
  | .sbcAtX => true
  | .cmpImm _ => true
  | .cmpDp _ => true
  | .cmpDpX _ => true
  | .cmpAbs _ => true
  | .cmpAbsY _ => true
  | .cmpIndX _ => true
  | .cmpIndY _ => true
  | .cmpAtX => true
  | .orImm _ => true
  | .orDp _ => true
  | .orDpX _ => true
  | .orAbs _ => true
  | .orAbsY _ => true
  | .orIndX _ => true
  | .orIndY _ => true
  | .orAtX => true
  | .andImm _ => true
  | .andDp _ => true
  | .andDpX _ => true
  | .andAbs _ => true
  | .andAbsY _ => true
  | .andIndX _ => true
  | .andIndY _ => true
  | .andAtX => true
  | .eorImm _ => true
  | .eorDp _ => true
  | .eorDpX _ => true
  | .eorAbs _ => true
  | .eorAbsY _ => true
  | .eorIndX _ => true
  | .eorIndY _ => true
  | .eorAtX => true
  | .ldaImm _ => true
  | .ldaDp _ => true
  | .ldaDpX _ => true
  | .ldaAbs _ => true
  | .ldaAbsY _ => true
  | .ldaIndX _ => true
  | .ldaIndY _ => true
  | .ldaAtX => true
  | .staDp _ => true
  | .staDpX _ => true
  | .staAbs _ => true
  | .staAbsY _ => true
  | .staIndX _ => true
  | .staIndY _ => true
  | .staAtX => true
  | .ldm _ _ => true
  | .ldaAtXInc => true
  | .staAtXInc => true
  | .aslA => true
  | .aslDp _ => true
  | .aslDpX _ => true
  | .aslAbs _ => true
  | .rolA => true
  | .rolDp _ => true
  | .rolDpX _ => true
  | .rolAbs _ => true
  | .lsrA => true
  | .lsrDp _ => true
  | .lsrDpX _ => true
  | .lsrAbs _ => true
  | .rorA => true
  | .rorDp _ => true
  | .rorDpX _ => true
  | .rorAbs _ => true
  | .incA => true
  | .incDp _ => true
  | .incDpX _ => true
  | .incAbs _ => true
  | .decA => true
  | .decDp _ => true
  | .decDpX _ => true
  | .decAbs _ => true
  | .incX => true
  | .incY => true
  | .decX => true
  | .decY => true
  | .cmpxImm _ => true
  | .cmpxDp _ => true
  | .cmpxAbs _ => true
  | .cmpyImm _ => true
  | .cmpyDp _ => true
  | .cmpyAbs _ => true
  | .comDp _ => true
  | .daa => true
  | .das => true
  | .div => true
  | .mul => true
  | .tstDp _ => true
  | .xcn => true
  | .ldxImm _ => true
  | .ldxDp _ => true
  | .ldxDpY _ => true
  | .ldxAbs _ => true
  | .ldyImm _ => true
  | .ldyDp _ => true
  | .ldyDpX _ => true
  | .ldyAbs _ => true
  | .stxDp _ => true
  | .stxDpY _ => true
  | .stxAbs _ => true
  | .styDp _ => true
  | .styDpX _ => true
  | .styAbs _ => true
  | .tax => true
  | .tay => true
  | .tspx => true
  | .txa => true
  | .txsp => true
  | .tya => true
  | .xax => true
  | .xay => true
  | .xmaDp _ => true
  | .xmaDpX _ => true
  | .xmaAtX => true
  | .xyx => true
  | .addwDp _ => true
  | .cmpwDp _ => true
  | .decwDp _ => true
  | .incwDp _ => true
  | .ldyaDp _ => true
  | .styaDp _ => true
  | .subwDp _ => true
  | .and1 b1 b2 => !(layout b1 b2).invert
  | .and1b b1 b2 => (layout b1 b2).invert
  | .eor1 b1 b2 => !(layout b1 b2).invert
  | .eor1b b1 b2 => (layout b1 b2).invert
  | .ldc b1 b2 => !(layout b1 b2).invert
  | .ldcb b1 b2 => (layout b1 b2).invert
  | .not1 _ _ => true
  | .or1 b1 b2 => !(layout b1 b2).invert
  | .or1b b1 b2 => (layout b1 b2).invert
  | .stc _ _ => true
  | .seta1 _ => true
  | .clra1 _ => true
  | .bitDp _ => true
  | .bitAbs _ => true
  | .set1 _ _ => true
  | .clr1 _ _ => true
  | .clrc => true
  | .clrg => true
  | .clrv => true
  | .setc => true
  | .setg => true
  | .tclr1Abs _ => true
  | .tset1Abs _ => true
  | .bbcA _ _ => true
  | .bbcDp _ _ _ => true
  | .bbsA _ _ => true
  | .bbsDp _ _ _ => true
  | .bcc _ => true
  | .bcs _ => true
  | .beq _ => true
  | .bmi _ => true
  | .bne _ => true
  | .bpl _ => true
  | .bvc _ => true
  | .bvs _ => true
  | .bra _ => true
  | .callAbs _ => true
  | .callIndDp _ => true
  | .cbneDp _ _ => true
  | .cbneDpX _ _ => true
  | .dbneDp _ _ => true
  | .dbneY _ => true
  | .jmpAbs _ => true
  | .jmpIndAbs _ => true
  | .jmpIndDp _ => true
  | .pcall _ => true
  | .tcall _ => true
  | .brk => true
  | .di => true
  | .ei => true
  | .nop => true
  | .popA => true
  | .popX => true
  | .popY => true
  | .popPsw => true
  | .pushA => true
  | .pushX => true
  | .pushY => true
  | .pushPsw => true
  | .ret => true
  | .reti => true
  | .stop => true

/-- The check under the implementation's layout. -/
def Instr.wellFormed (i : Instr) : Bool := i.wellFormedIn Config.mbitDecode

end Sys2Proof
end

