-- ==== Sys2Proof/Decode.lean ====
section
/-! DEFINITION. The decoder, a table of the opcode map of spec/30_encoding.md (R101 to R132), and the encoder
written from the same formats (R102). -/

namespace Sys2Proof

open Machine

/-- How an opcode and its operand bytes, in address order, make an instruction: the formats of R102. -/
inductive Build where
  /-- One byte. -/
  | none (i : Instr)
  /-- One operand byte. -/
  | one (f : Byte → Instr)
  /-- Two operand bytes. -/
  | two (f : Byte → Byte → Instr)
  /-- A 16-bit address, low byte first (R105). -/
  | word (f : Word → Instr)
  /-- The bit number in opcode[7:5] and one operand byte (R118, R119). -/
  | bitOne (f : BitVec 3 → Byte → Instr)
  /-- The bit number in opcode[7:5] and two operand bytes. -/
  | bitTwo (f : BitVec 3 → Byte → Byte → Instr)
  /-- The table-call number in opcode[7:4] (R120). -/
  | nibble (f : BitVec 4 → Instr)

/-- How many operand bytes follow the opcode. -/
def Build.operandBytes : Build → Nat
  | .none _ | .nibble _ => 0
  | .one _ | .bitOne _ => 1
  | .two _ | .word _ | .bitTwo _ => 2

/-- The instruction, from the opcode and the operand bytes (those the format lacks are ignored). -/
def Build.apply (b : Build) (op b1 b2 : Byte) : Instr :=
  match b with
  | .none i => i
  | .one f => f b1
  | .two f => f b1 b2
  | .word f => f (wordOf b2 b1)
  | .bitOne f => f (op.extractLsb' 5 3) b1
  | .bitTwo f => f (op.extractLsb' 5 3) b1 b2
  | .nibble f => f (op.extractLsb' 4 4)

/-- A row of the opcode map: the opcodes equal to `pattern` under `mask`. -/
structure OpRow where
  mask    : Byte
  pattern : Byte
  build   : Build

/-- An opcode with no operand field of its own. -/
def exact (pattern : Byte) (b : Build) : OpRow := { mask := 0xFF, pattern := pattern, build := b }

/-- An opcode whose bits 7:5 are the bit number (R118, R119). -/
def column (pattern : Byte) (b : Build) : OpRow := { mask := 0x1F, pattern := pattern, build := b }

/-- Arithmetic and logic (Appendix B.1, R144 to R166). -/
def rowsArith : List OpRow :=
  [ exact 0x04 (.one .adcImm),
    exact 0x05 (.one .adcDp),
    exact 0x06 (.one .adcDpX),
    exact 0x07 (.word .adcAbs),
    exact 0x15 (.word .adcAbsY),
    exact 0x16 (.one .adcIndX),
    exact 0x17 (.one .adcIndY),
    exact 0x14 (.none .adcAtX),
    exact 0x24 (.one .sbcImm),
    exact 0x25 (.one .sbcDp),
    exact 0x26 (.one .sbcDpX),
    exact 0x27 (.word .sbcAbs),
    exact 0x35 (.word .sbcAbsY),
    exact 0x36 (.one .sbcIndX),
    exact 0x37 (.one .sbcIndY),
    exact 0x34 (.none .sbcAtX),
    exact 0x44 (.one .cmpImm),
    exact 0x45 (.one .cmpDp),
    exact 0x46 (.one .cmpDpX),
    exact 0x47 (.word .cmpAbs),
    exact 0x55 (.word .cmpAbsY),
    exact 0x56 (.one .cmpIndX),
    exact 0x57 (.one .cmpIndY),
    exact 0x54 (.none .cmpAtX) ] ++
  [ exact 0x64 (.one .orImm),
    exact 0x65 (.one .orDp),
    exact 0x66 (.one .orDpX),
    exact 0x67 (.word .orAbs),
    exact 0x75 (.word .orAbsY),
    exact 0x76 (.one .orIndX),
    exact 0x77 (.one .orIndY),
    exact 0x74 (.none .orAtX),
    exact 0x84 (.one .andImm),
    exact 0x85 (.one .andDp),
    exact 0x86 (.one .andDpX),
    exact 0x87 (.word .andAbs),
    exact 0x95 (.word .andAbsY),
    exact 0x96 (.one .andIndX),
    exact 0x97 (.one .andIndY),
    exact 0x94 (.none .andAtX),
    exact 0xA4 (.one .eorImm),
    exact 0xA5 (.one .eorDp),
    exact 0xA6 (.one .eorDpX),
    exact 0xA7 (.word .eorAbs),
    exact 0xB5 (.word .eorAbsY),
    exact 0xB6 (.one .eorIndX),
    exact 0xB7 (.one .eorIndY),
    exact 0xB4 (.none .eorAtX) ] ++
  [ exact 0x08 (.none .aslA),
    exact 0x09 (.one .aslDp),
    exact 0x19 (.one .aslDpX),
    exact 0x18 (.word .aslAbs),
    exact 0x28 (.none .rolA),
    exact 0x29 (.one .rolDp),
    exact 0x39 (.one .rolDpX),
    exact 0x38 (.word .rolAbs),
    exact 0x48 (.none .lsrA),
    exact 0x49 (.one .lsrDp),
    exact 0x59 (.one .lsrDpX),
    exact 0x58 (.word .lsrAbs),
    exact 0x68 (.none .rorA),
    exact 0x69 (.one .rorDp),
    exact 0x79 (.one .rorDpX),
    exact 0x78 (.word .rorAbs),
    exact 0x88 (.none .incA),
    exact 0x89 (.one .incDp),
    exact 0x99 (.one .incDpX),
    exact 0x98 (.word .incAbs),
    exact 0xA8 (.none .decA),
    exact 0xA9 (.one .decDp),
    exact 0xB9 (.one .decDpX),
    exact 0xB8 (.word .decAbs) ] ++
  [ exact 0x8F (.none .incX),
    exact 0x9E (.none .incY),
    exact 0xAF (.none .decX),
    exact 0xBE (.none .decY),
    exact 0x5E (.one .cmpxImm),
    exact 0x6C (.one .cmpxDp),
    exact 0x7C (.word .cmpxAbs),
    exact 0x7E (.one .cmpyImm),
    exact 0x8C (.one .cmpyDp),
    exact 0x9C (.word .cmpyAbs),
    exact 0x2C (.one .comDp),
    exact 0xDF (.none .daa),
    exact 0xCF (.none .das),
    exact 0x9B (.none .div),
    exact 0x5B (.none .mul),
    exact 0x4C (.one .tstDp),
    exact 0xCE (.none .xcn) ]

/-- Register and memory transfer (Appendix B.2, R180 to R198). -/
def rowsRegMem : List OpRow :=
  [ exact 0xC4 (.one .ldaImm),
    exact 0xC5 (.one .ldaDp),
    exact 0xC6 (.one .ldaDpX),
    exact 0xC7 (.word .ldaAbs),
    exact 0xD5 (.word .ldaAbsY),
    exact 0xD6 (.one .ldaIndX),
    exact 0xD7 (.one .ldaIndY),
    exact 0xD4 (.none .ldaAtX),
    exact 0xE5 (.one .staDp),
    exact 0xE6 (.one .staDpX),
    exact 0xE7 (.word .staAbs),
    exact 0xF5 (.word .staAbsY),
    exact 0xF6 (.one .staIndX),
    exact 0xF7 (.one .staIndY),
    exact 0xF4 (.none .staAtX),
    exact 0xE4 (.two fun imm dp => .ldm dp imm),
    exact 0xDB (.none .ldaAtXInc),
    exact 0xFB (.none .staAtXInc),
    exact 0x1E (.one .ldxImm),
    exact 0xCC (.one .ldxDp),
    exact 0xCD (.one .ldxDpY),
    exact 0xDC (.word .ldxAbs),
    exact 0x3E (.one .ldyImm),
    exact 0xC9 (.one .ldyDp) ] ++
  [ exact 0xD9 (.one .ldyDpX),
    exact 0xD8 (.word .ldyAbs),
    exact 0xEC (.one .stxDp),
    exact 0xED (.one .stxDpY),
    exact 0xFC (.word .stxAbs),
    exact 0xE9 (.one .styDp),
    exact 0xF9 (.one .styDpX),
    exact 0xF8 (.word .styAbs),
    exact 0xE8 (.none .tax),
    exact 0x9F (.none .tay),
    exact 0xAE (.none .tspx),
    exact 0xC8 (.none .txa),
    exact 0x8E (.none .txsp),
    exact 0xBF (.none .tya),
    exact 0xEE (.none .xax),
    exact 0xDE (.none .xay),
    exact 0xBC (.one .xmaDp),
    exact 0xAD (.one .xmaDpX),
    exact 0xBB (.none .xmaAtX),
    exact 0xFE (.none .xyx) ]

/-- 16-bit instructions (Appendix B.3, R211 to R217). -/
def rowsWord16 : List OpRow :=
  [ exact 0x1D (.one .addwDp),
    exact 0x5D (.one .cmpwDp),
    exact 0xBD (.one .decwDp),
    exact 0x9D (.one .incwDp),
    exact 0x7D (.one .ldyaDp),
    exact 0xDD (.one .styaDp),
    exact 0x3D (.one .subwDp) ]

/-- Bit manipulation (Appendix B.4, R233 to R254). The four opcodes that two mnemonics share are split by `invert`
(R127). -/
def rowsBit (layout : Byte → Byte → MBit) : List OpRow :=
  [ exact 0x8B (.two fun b1 b2 => if (layout b1 b2).invert then .and1b b1 b2 else .and1 b1 b2),
    exact 0xAB (.two fun b1 b2 => if (layout b1 b2).invert then .eor1b b1 b2 else .eor1 b1 b2),
    exact 0xCB (.two fun b1 b2 => if (layout b1 b2).invert then .ldcb b1 b2 else .ldc b1 b2),
    exact 0x4B (.two .not1),
    exact 0x6B (.two fun b1 b2 => if (layout b1 b2).invert then .or1b b1 b2 else .or1 b1 b2),
    exact 0xEB (.two .stc),
    exact 0x0B (.one .seta1),
    exact 0x2B (.one .clra1),
    exact 0x0C (.one .bitDp),
    exact 0x1C (.word .bitAbs),
    column 0x01 (.bitOne .set1),
    column 0x11 (.bitOne .clr1),
    exact 0x20 (.none .clrc),
    exact 0x40 (.none .clrg),
    exact 0x80 (.none .clrv),
    exact 0xA0 (.none .setc),
    exact 0xC0 (.none .setg),
    exact 0x5C (.word .tclr1Abs),
    exact 0x3C (.word .tset1Abs) ]

/-- Branch, jump and call (Appendix B.5, R271 to R290). -/
def rowsBranch : List OpRow :=
  [ column 0x12 (.bitOne .bbcA),
    column 0x13 (.bitTwo .bbcDp),
    column 0x02 (.bitOne .bbsA),
    column 0x03 (.bitTwo .bbsDp),
    exact 0x50 (.one .bcc),
    exact 0xD0 (.one .bcs),
    exact 0xF0 (.one .beq),
    exact 0x90 (.one .bmi),
    exact 0x70 (.one .bne),
    exact 0x10 (.one .bpl),
    exact 0x30 (.one .bvc),
    exact 0xB0 (.one .bvs),
    exact 0x2F (.one .bra),
    exact 0x3B (.word .callAbs),
    exact 0x5F (.one .callIndDp),
    exact 0xFD (.two .cbneDp),
    exact 0x8D (.two .cbneDpX),
    exact 0xAC (.two .dbneDp),
    exact 0x7B (.one .dbneY),
    exact 0x1B (.word .jmpAbs),
    exact 0x1F (.word .jmpIndAbs),
    exact 0x3F (.one .jmpIndDp),
    exact 0x4F (.one .pcall),
    { mask := 0x0F, pattern := 0x0A, build := (.nibble .tcall) } ]

/-- Control and stack (Appendix B.6, R300 to R314) and the unassigned 00H (R131). -/
def rowsControl : List OpRow :=
  [ exact 0x00 (.none .unassigned),
    exact 0x0F (.none .brk),
    exact 0x60 (.none .di),
    exact 0xE0 (.none .ei),
    exact 0xFF (.none .nop),
    exact 0x0D (.none .popA),
    exact 0x2D (.none .popX),
    exact 0x4D (.none .popY),
    exact 0x6D (.none .popPsw),
    exact 0x0E (.none .pushA),
    exact 0x2E (.none .pushX),
    exact 0x4E (.none .pushY),
    exact 0x6E (.none .pushPsw),
    exact 0x6F (.none .ret),
    exact 0x7F (.none .reti),
    exact 0xEF (.none .stop) ]

/-- The whole opcode map (R129) under a given `MBIT_DECODE` layout. -/
def opcodeMap (layout : Byte → Byte → MBit) : List OpRow :=
  rowsArith ++ rowsRegMem ++ rowsWord16 ++ rowsBit layout ++ rowsBranch ++ rowsControl

/-- The row of the map an opcode falls in. All 256 values are in it. -/
def buildIn (layout : Byte → Byte → MBit) (op : Byte) : Build :=
  ((opcodeMap layout).find? fun r => op &&& r.mask == r.pattern).elim (.none .unassigned) OpRow.build

/-- Why bytes are no instruction: there are too few of them. -/
inductive DecodeError where
  /-- There is no opcode byte. -/
  | noOpcode
  /-- Operand bytes of this opcode are missing. -/
  | missingOperand (op : Byte)
deriving DecidableEq, Repr

/-- The instruction at the head of a list of bytes and the bytes after it, under a given layout. -/
def decodeIn (layout : Byte → Byte → MBit) : List Byte → Except DecodeError (Instr × List Byte)
  | [] => .error .noOpcode
  | op :: rest =>
    let b := buildIn layout op
    if rest.length < b.operandBytes then .error (.missingOperand op)
    else .ok (b.apply op (rest.getD 0 0) (rest.getD 1 0), rest.drop b.operandBytes)

/-- The decoder of this implementation. -/
def decode (bytes : List Byte) : Except DecodeError (Instr × List Byte) := decodeIn Config.mbitDecode bytes

/-- The row of the map under the implementation's layout. -/
def buildOf (op : Byte) : Build := buildIn Config.mbitDecode op

/-- The opcode whose bits 7:5 are a bit number (R118, R119). -/
def bitOpcode (bit : BitVec 3) (low : BitVec 5) : Byte := bit ++ low

/-- The bytes of an instruction, in address order (R102, R108, R109). -/
def encode : Instr → List Byte
  | .unassigned => [0x00]
  | .adcImm imm => [0x04, imm]
  | .adcDp dp => [0x05, dp]
  | .adcDpX dp => [0x06, dp]
  | .adcAbs abs => [0x07, loByte abs, hiByte abs]
  | .adcAbsY abs => [0x15, loByte abs, hiByte abs]
  | .adcIndX dp => [0x16, dp]
  | .adcIndY dp => [0x17, dp]
  | .adcAtX => [0x14]
  | .sbcImm imm => [0x24, imm]
  | .sbcDp dp => [0x25, dp]
  | .sbcDpX dp => [0x26, dp]
  | .sbcAbs abs => [0x27, loByte abs, hiByte abs]
  | .sbcAbsY abs => [0x35, loByte abs, hiByte abs]
  | .sbcIndX dp => [0x36, dp]
  | .sbcIndY dp => [0x37, dp]
  | .sbcAtX => [0x34]
  | .cmpImm imm => [0x44, imm]
  | .cmpDp dp => [0x45, dp]
  | .cmpDpX dp => [0x46, dp]
  | .cmpAbs abs => [0x47, loByte abs, hiByte abs]
  | .cmpAbsY abs => [0x55, loByte abs, hiByte abs]
  | .cmpIndX dp => [0x56, dp]
  | .cmpIndY dp => [0x57, dp]
  | .cmpAtX => [0x54]
  | .orImm imm => [0x64, imm]
  | .orDp dp => [0x65, dp]
  | .orDpX dp => [0x66, dp]
  | .orAbs abs => [0x67, loByte abs, hiByte abs]
  | .orAbsY abs => [0x75, loByte abs, hiByte abs]
  | .orIndX dp => [0x76, dp]
  | .orIndY dp => [0x77, dp]
  | .orAtX => [0x74]
  | .andImm imm => [0x84, imm]
  | .andDp dp => [0x85, dp]
  | .andDpX dp => [0x86, dp]
  | .andAbs abs => [0x87, loByte abs, hiByte abs]
  | .andAbsY abs => [0x95, loByte abs, hiByte abs]
  | .andIndX dp => [0x96, dp]
  | .andIndY dp => [0x97, dp]
  | .andAtX => [0x94]
  | .eorImm imm => [0xA4, imm]
  | .eorDp dp => [0xA5, dp]
  | .eorDpX dp => [0xA6, dp]
  | .eorAbs abs => [0xA7, loByte abs, hiByte abs]
  | .eorAbsY abs => [0xB5, loByte abs, hiByte abs]
  | .eorIndX dp => [0xB6, dp]
  | .eorIndY dp => [0xB7, dp]
  | .eorAtX => [0xB4]
  | .ldaImm imm => [0xC4, imm]
  | .ldaDp dp => [0xC5, dp]
  | .ldaDpX dp => [0xC6, dp]
  | .ldaAbs abs => [0xC7, loByte abs, hiByte abs]
  | .ldaAbsY abs => [0xD5, loByte abs, hiByte abs]
  | .ldaIndX dp => [0xD6, dp]
  | .ldaIndY dp => [0xD7, dp]
  | .ldaAtX => [0xD4]
  | .staDp dp => [0xE5, dp]
  | .staDpX dp => [0xE6, dp]
  | .staAbs abs => [0xE7, loByte abs, hiByte abs]
  | .staAbsY abs => [0xF5, loByte abs, hiByte abs]
  | .staIndX dp => [0xF6, dp]
  | .staIndY dp => [0xF7, dp]
  | .staAtX => [0xF4]
  | .ldm dp imm => [0xE4, imm, dp]
  | .ldaAtXInc => [0xDB]
  | .staAtXInc => [0xFB]
  | .aslA => [0x08]
  | .aslDp dp => [0x09, dp]
  | .aslDpX dp => [0x19, dp]
  | .aslAbs abs => [0x18, loByte abs, hiByte abs]
  | .rolA => [0x28]
  | .rolDp dp => [0x29, dp]
  | .rolDpX dp => [0x39, dp]
  | .rolAbs abs => [0x38, loByte abs, hiByte abs]
  | .lsrA => [0x48]
  | .lsrDp dp => [0x49, dp]
  | .lsrDpX dp => [0x59, dp]
  | .lsrAbs abs => [0x58, loByte abs, hiByte abs]
  | .rorA => [0x68]
  | .rorDp dp => [0x69, dp]
  | .rorDpX dp => [0x79, dp]
  | .rorAbs abs => [0x78, loByte abs, hiByte abs]
  | .incA => [0x88]
  | .incDp dp => [0x89, dp]
  | .incDpX dp => [0x99, dp]
  | .incAbs abs => [0x98, loByte abs, hiByte abs]
  | .decA => [0xA8]
  | .decDp dp => [0xA9, dp]
  | .decDpX dp => [0xB9, dp]
  | .decAbs abs => [0xB8, loByte abs, hiByte abs]
  | .incX => [0x8F]
  | .incY => [0x9E]
  | .decX => [0xAF]
  | .decY => [0xBE]
  | .cmpxImm imm => [0x5E, imm]
  | .cmpxDp dp => [0x6C, dp]
  | .cmpxAbs abs => [0x7C, loByte abs, hiByte abs]
  | .cmpyImm imm => [0x7E, imm]
  | .cmpyDp dp => [0x8C, dp]
  | .cmpyAbs abs => [0x9C, loByte abs, hiByte abs]
  | .comDp dp => [0x2C, dp]
  | .daa => [0xDF]
  | .das => [0xCF]
  | .div => [0x9B]
  | .mul => [0x5B]
  | .tstDp dp => [0x4C, dp]
  | .xcn => [0xCE]
  | .ldxImm imm => [0x1E, imm]
  | .ldxDp dp => [0xCC, dp]
  | .ldxDpY dp => [0xCD, dp]
  | .ldxAbs abs => [0xDC, loByte abs, hiByte abs]
  | .ldyImm imm => [0x3E, imm]
  | .ldyDp dp => [0xC9, dp]
  | .ldyDpX dp => [0xD9, dp]
  | .ldyAbs abs => [0xD8, loByte abs, hiByte abs]
  | .stxDp dp => [0xEC, dp]
  | .stxDpY dp => [0xED, dp]
  | .stxAbs abs => [0xFC, loByte abs, hiByte abs]
  | .styDp dp => [0xE9, dp]
  | .styDpX dp => [0xF9, dp]
  | .styAbs abs => [0xF8, loByte abs, hiByte abs]
  | .tax => [0xE8]
  | .tay => [0x9F]
  | .tspx => [0xAE]
  | .txa => [0xC8]
  | .txsp => [0x8E]
  | .tya => [0xBF]
  | .xax => [0xEE]
  | .xay => [0xDE]
  | .xmaDp dp => [0xBC, dp]
  | .xmaDpX dp => [0xAD, dp]
  | .xmaAtX => [0xBB]
  | .xyx => [0xFE]
  | .addwDp dp => [0x1D, dp]
  | .cmpwDp dp => [0x5D, dp]
  | .decwDp dp => [0xBD, dp]
  | .incwDp dp => [0x9D, dp]
  | .ldyaDp dp => [0x7D, dp]
  | .styaDp dp => [0xDD, dp]
  | .subwDp dp => [0x3D, dp]
  | .and1 b1 b2 => [0x8B, b1, b2]
  | .and1b b1 b2 => [0x8B, b1, b2]
  | .eor1 b1 b2 => [0xAB, b1, b2]
  | .eor1b b1 b2 => [0xAB, b1, b2]
  | .ldc b1 b2 => [0xCB, b1, b2]
  | .ldcb b1 b2 => [0xCB, b1, b2]
  | .not1 b1 b2 => [0x4B, b1, b2]
  | .or1 b1 b2 => [0x6B, b1, b2]
  | .or1b b1 b2 => [0x6B, b1, b2]
  | .stc b1 b2 => [0xEB, b1, b2]
  | .seta1 b1 => [0x0B, b1]
  | .clra1 b1 => [0x2B, b1]
  | .bitDp dp => [0x0C, dp]
  | .bitAbs abs => [0x1C, loByte abs, hiByte abs]
  | .set1 bit dp => [bitOpcode bit 0x01, dp]
  | .clr1 bit dp => [bitOpcode bit 0x11, dp]
  | .clrc => [0x20]
  | .clrg => [0x40]
  | .clrv => [0x80]
  | .setc => [0xA0]
  | .setg => [0xC0]
  | .tclr1Abs abs => [0x5C, loByte abs, hiByte abs]
  | .tset1Abs abs => [0x3C, loByte abs, hiByte abs]
  | .bbcA bit rel => [bitOpcode bit 0x12, rel]
  | .bbcDp bit dp rel => [bitOpcode bit 0x13, dp, rel]
  | .bbsA bit rel => [bitOpcode bit 0x02, rel]
  | .bbsDp bit dp rel => [bitOpcode bit 0x03, dp, rel]
  | .bcc rel => [0x50, rel]
  | .bcs rel => [0xD0, rel]
  | .beq rel => [0xF0, rel]
  | .bmi rel => [0x90, rel]
  | .bne rel => [0x70, rel]
  | .bpl rel => [0x10, rel]
  | .bvc rel => [0x30, rel]
  | .bvs rel => [0xB0, rel]
  | .bra rel => [0x2F, rel]
  | .callAbs abs => [0x3B, loByte abs, hiByte abs]
  | .callIndDp dp => [0x5F, dp]
  | .cbneDp dp rel => [0xFD, dp, rel]
  | .cbneDpX dp rel => [0x8D, dp, rel]
  | .dbneDp dp rel => [0xAC, dp, rel]
  | .dbneY rel => [0x7B, rel]
  | .jmpAbs abs => [0x1B, loByte abs, hiByte abs]
  | .jmpIndAbs abs => [0x1F, loByte abs, hiByte abs]
  | .jmpIndDp dp => [0x3F, dp]
  | .pcall upage => [0x4F, upage]
  | .tcall n => [n ++ 0xA#4]
  | .brk => [0x0F]
  | .di => [0x60]
  | .ei => [0xE0]
  | .nop => [0xFF]
  | .popA => [0x0D]
  | .popX => [0x2D]
  | .popY => [0x4D]
  | .popPsw => [0x6D]
  | .pushA => [0x0E]
  | .pushX => [0x2E]
  | .pushY => [0x4E]
  | .pushPsw => [0x6E]
  | .ret => [0x6F]
  | .reti => [0x7F]
  | .stop => [0xEF]

/-- The k-th byte of a word numbered as spec/opcode_table.json numbers it: byte 0 is bits 7:0. -/
def tableByte (w k : Nat) : Byte := BitVec.ofNat 8 (w >>> (8 * k))

/-- The bytes of a table word of `nbits` bits, with zeros above them up to the longest instruction. -/
def tableBytes (nbits w : Nat) : List Byte :=
  let v := w % 2 ^ nbits
  [tableByte v 0, tableByte v 1, tableByte v 2]

/-- What the decoder reads from a table word. -/
def decodeTableWord (nbits w : Nat) : Option Instr :=
  match decode (tableBytes nbits w) with
  | .ok (i, _) => some i
  | .error _ => none

end Sys2Proof
end

