-- ==== Sys2Proof/Machine/State.lean ====
section
/-! DEFINITION. The machine's state as plain data: everything spec/10_state.md gives the machine, the
parameters of a run a program cannot change, and the environment's script. -/

namespace Sys2Proof.Machine

/-- RAM and program memory together: the listed bytes by address, in the canonical form
`Memory.wf` (Machine/Memory.lean). An address that is not listed has no value of its own. Log entry 47. -/
abbrev Memory := List Host.Cell

/-- The six devices of R1 and R2. -/
inductive Device where
  | hms87c1304A
  | hms87c1302A
  | hms87c1204A
  | hms87c1202A
  | hms87c1104A
  | hms87c1102A
deriving DecidableEq, Repr, Inhabited

/-- The run mode of R436. -/
inductive Mode where
  | run
  | stop
  | wakeupTimer
  | rcWdt
deriving DecidableEq, Repr, Inhabited

/-- The CONFIG option bits, fixed when the part is programmed (R46, R530). The open-drain masks say
which pins the open-drain selection makes open drain (R470). -/
structure Options where
  lock       : Bool
  poren      : Bool
  rcopt      : Bool
  pfdLevel   : Bool
  openDrainA : BitVec 8
  openDrainB : BitVec 5
  openDrainC : BitVec 2
  openDrainD : BitVec 4
deriving DecidableEq, Repr

/-- Port latches, direction and function registers, pull-up selection, and the levels the environment
presents at the pins (R46, R460 to R470). -/
structure Ports where
  latchA : BitVec 8
  latchB : BitVec 5
  latchC : BitVec 2
  latchD : BitVec 4
  raio   : BitVec 8
  rbio   : BitVec 5
  rcio   : BitVec 2
  rdio   : BitVec 4
  rafunc : BitVec 8
  rbfunc : BitVec 5
  pupsel : BitVec 4
  pinA   : BitVec 8
  pinB   : BitVec 5
  pinC   : BitVec 2
  pinD   : BitVec 4
deriving DecidableEq, Repr

/-- Timers 0 and 1 with capture, compare output and PWM (R480 to R497). TDR1 and T1PPR are one
register (R484). -/
structure Timers where
  tm0    : BitVec 6
  t0     : Byte
  tdr0   : Byte
  cdr0   : Byte
  tm1    : Byte
  t1     : Byte
  tdr1   : Byte
  cdr1   : Byte
  t1pdr  : Byte
  pwm0hr : BitVec 4
  pwmCnt : BitVec 10
  dutyS  : BitVec 10
  comp0  : Bool
deriving DecidableEq, Repr

/-- Interrupt enable, request and edge-selection registers (R403 to R408), each holding its implemented
bits only, and the levels the edge detectors of INT0 and INT1 saw last (R46, R409). -/
structure Interrupts where
  ienh     : BitVec 4
  ienl     : BitVec 3
  irqh     : BitVec 4
  irql     : BitVec 3
  ieds     : BitVec 4
  int0Seen : Bool
  int1Seen : Bool
deriving DecidableEq, Repr

/-- CKCTLR, the basic interval timer and the watchdog (R440 to R445, R474, R475). -/
structure ClockUnit where
  wakeup : Bool
  rcwdt  : Bool
  wdton  : Bool
  bts    : BitVec 3
  bitr   : Byte
  wdtr   : BitVec 7
  wdtcnt : BitVec 7
  /-- MODEL'S OWN: WDTCNT has gone through 7FH since it was last cleared, so that 128 overflows of BITR or more have
  been counted (R442, log entry 44). -/
  wdtWrapped : Bool
deriving DecidableEq, Repr

/-- The buzzer: BUR, its 6-bit counter and its output latch (R500, R501). -/
structure Buzzer where
  bur : Byte
  cnt : BitVec 6
  out : Bool
deriving DecidableEq, Repr

/-- The A/D converter: the stored fields of ADCM, ADCR, and the conversion in progress with the channel
it converts (R510 to R512). -/
structure Adc where
  aden    : Bool
  ads     : BitVec 3
  adsf    : Bool
  busy    : Bool
  channel : BitVec 3
  adcr    : Byte
deriving DecidableEq, Repr

/-- The power-fail detector: PFDR bits 3:0, and whether a power failure has halted the system clock
(R520, R521). -/
structure PowerFail where
  pfdr        : BitVec 4
  clockHalted : Bool
deriving DecidableEq, Repr

/-- The causes of a reset (R430, R550). -/
inductive ResetCause where
  | pin
  | powerOn
  | watchdog
  | powerFail
deriving DecidableEq, Repr, Inhabited

/-- RAM bytes a reset leaves with any value because the instruction it cut short was writing them (R557, U42): the
environment names the byte and the value, and the step lets in only bytes that instruction writes (`admittedTorn` of
Machine/Run.lean, log entry 22). -/
abbrev Torn := List (BitVec 7 × Byte)

/-- The environment events of R531. One whose enabling condition does not hold changes nothing. -/
inductive Event where
  /-- One tick of the basic interval timer (R475). `torn` matters only if the watchdog resets. -/
  | bitClock (torn : Torn)
  /-- The match of the watchdog counter (R442). `torn` matters only if the watchdog resets. -/
  | watchdogMatch (torn : Torn)
  /-- One tick of timer 0 from an internal clock (R485, R487). -/
  | t0Clock
  /-- One tick of timer 1 (R486, R496). -/
  | t1Clock
  /-- One tick of the buzzer clock (R501). -/
  | buzClock
  /-- The conversion in progress ends with this result (R512). -/
  | adcDone (result : Byte)
  /-- The pins take these levels (R460); edges on EC0, INT0 and INT1 follow from it (R409, R489, R490). -/
  | pins (ra : BitVec 8) (rb : BitVec 5) (rc : BitVec 2) (rd : BitVec 4)
  /-- The supply falls below the detection level (R521). -/
  | powerFail (torn : Torn)
  /-- The supply recovers after a clock halt (R521). -/
  | supplyRecovers
  /-- A reset from the RESET pin (R551). -/
  | resetPin (torn : Torn)
  /-- A power-on reset (R553). -/
  | resetPowerOn
deriving DecidableEq, Repr

/-- Who makes the next move: the CPU, with the peripheral events that fire between the read and the
write of its instruction (R73, R562), or the environment (R531). -/
inductive Turn where
  | cpu (mid : List Event)
  | env (e : Event)
deriving DecidableEq, Repr

/-- Everything the machine holds. -/
structure State where
  /-- The accumulator (R21). -/
  a          : Byte
  /-- Index register X (R22). -/
  x          : Byte
  /-- Index register Y, the high half of YA (R22, R23). -/
  y          : Byte
  /-- The stack pointer (R24). -/
  sp         : Byte
  /-- The program status word N V G B H I Z C (R30). -/
  psw        : Byte
  /-- The program counter (R28). -/
  pc         : Word
  /-- RAM and program memory (R45). -/
  mem        : Memory
  ports      : Ports
  timers     : Timers
  irq        : Interrupts
  clock      : ClockUnit
  buzzer     : Buzzer
  adc        : Adc
  power      : PowerFail
  /-- The power-saving mode (R436). -/
  mode       : Mode
  /-- Which device this is (R2, R6): no step changes it. -/
  device     : Device
  /-- The CONFIG options (R530): no step changes them. -/
  options    : Options
  /-- MODEL'S OWN: the reset vector is still to be read (log entry 19). -/
  bootPending : Bool
  /-- MODEL'S OWN: the environment's script; when it is empty the CPU moves (log entry 20). -/
  schedule   : List Turn
  /-- MODEL'S OWN: events that fire between the read and the write of the instruction being executed
  (log entry 21); empty between steps. -/
  midEvents  : List Event
  /-- MODEL'S OWN: how many power-on resets have happened (log entry 2). -/
  powerCycle : Nat
  /-- MODEL'S OWN: how many free values have been used (log entry 1). -/
  draws      : Nat
deriving DecidableEq, Repr

/-- Why the machine stops. Every constructor is a `Refuse` of the spec about an access: the manual gives
the access no meaning, so stopping is safe. -/
inductive Fault where
  /-- A data access to an address that holds nothing (R63). Raised by `memRead`, `memWrite`. Safe. -/
  | unimplementedAddress (a : Word)
  /-- A store to program memory (R65). Raised by `memWrite`. Safe. -/
  | writeToProgramMemory (a : Word)
  /-- A store to ADCR (R64). Raised by `writeSfr`. Safe. -/
  | writeToReadOnlyRegister (a : Word)
  /-- A read-modify-write instruction on a register marked "byte" (R64, R561). Raised by `rmwCheck`.
  Safe. -/
  | rmwOnWriteOnlyRegister (a : Word)
  /-- A direct-page address formed while G = 1 (R106). Raised by `directPage`. Safe. -/
  | directPageWithGSet
  /-- An instruction fetch outside the program memory (R77). Raised by `memFetch`. Safe. -/
  | fetchOutsideProgramMemory (a : Word)
deriving DecidableEq, Repr

/-- Why an instruction has no meaning. -/
inductive Refusal where
  /-- An instruction the model has not reached; raised by `exec` only. Safe. -/
  | notModelled (mnemonic : String)
  /-- Opcode 00H, which the manual leaves unassigned (R131). Raised by `execUnassigned`. Safe. -/
  | unassignedOpcode
deriving DecidableEq, Repr

/-- What a meaning answers. -/
abbrev Result := Host.Outcome State Fault Refusal

/-- The result of an operation that may stop: a value and the state after it, or a fault. -/
inductive Res (α : Type) where
  | ok (v : α) (s : State)
  | fault (f : Fault)
deriving Repr

/-- The CONFIG options of the model's reset state: nothing programmed (log entry 18). -/
def Options.unprogrammed : Options :=
  { lock := false, poren := false, rcopt := false, pfdLevel := false,
    openDrainA := 0, openDrainB := 0, openDrainC := 0, openDrainD := 0 }

/-- The machine right after reset: the values of spec/70_reset_and_hazards.md R556. Where that table says
"unspecified" the value is the model's (log entries 16 and 17). PC rests at the reset vector FFFEH until
the first step reads it (R552, log entry 19). -/
def State.reset : State :=
  { a := 0, x := 0, y := 0, sp := 0, psw := Config.pswReset, pc := 0xFFFE, mem := [],
    ports :=
      { latchA := 0, latchB := 0, latchC := 0, latchD := 0, raio := 0, rbio := 0, rcio := 0, rdio := 0,
        rafunc := 0, rbfunc := 0, pupsel := 0, pinA := 0, pinB := 0, pinC := 0, pinD := 0 },
    timers :=
      { tm0 := 0, t0 := 0, tdr0 := 0xFF, cdr0 := 0, tm1 := 0, t1 := 0, tdr1 := 0xFF, cdr1 := 0,
        t1pdr := 0, pwm0hr := 0, pwmCnt := 0, dutyS := 0, comp0 := false },
    irq := { ienh := 0, ienl := 0, irqh := 0, irql := 0, ieds := 0, int0Seen := false, int1Seen := false },
    clock :=
      { wakeup := false, rcwdt := false, wdton := true, bts := 7, bitr := 0, wdtr := 0x7F, wdtcnt := 0,
        wdtWrapped := false },
    buzzer := { bur := 0xFF, cnt := 0, out := false },
    adc := { aden := false, ads := 0, adsf := true, busy := false, channel := 0, adcr := 0 },
    power := { pfdr := 0x4, clockHalted := false },
    mode := .run, device := .hms87c1304A, options := Options.unprogrammed,
    bootPending := true, schedule := [], midEvents := [], powerCycle := 0, draws := 0 }

end Sys2Proof.Machine
end

