-- ==== Sys2Proof/Machine/Flags.lean ====
section
/-! DEFINITION. The flags of the program status word (spec/10_state.md R30 to R39) and every flag computation of the
instruction rules (spec/40_arith_logic.md to spec/43_bit.md). -/

namespace Sys2Proof.Machine

/-- The flags of PSW (R30). -/
inductive Flag where
  | c | z | i | h | b | g | v | n
deriving DecidableEq, Repr

/-- The bit of PSW a flag is: N V G B H I Z C from bit 7 to bit 0 (R30). -/
def Flag.bit : Flag → BitVec 3
  | .c => 0
  | .z => 1
  | .i => 2
  | .h => 3
  | .b => 4
  | .g => 5
  | .v => 6
  | .n => 7

/-- The value of a flag in a PSW byte. -/
def flag (f : Flag) (psw : Byte) : Bool := testBit psw f.bit

/-- A PSW byte with one flag set to a value. -/
def setFlag (f : Flag) (value : Bool) (psw : Byte) : Byte :=
  if value then psw ||| bitMask f.bit else psw &&& ~~~bitMask f.bit

/-- `setNZ8` (R10). -/
def setNZ8 (r psw : Byte) : Byte := setFlag .z (r == 0) (setFlag .n r.msb psw)

/-- `setNZ16` (R10). -/
def setNZ16 (r : Word) (psw : Byte) : Byte := setFlag .z (r == 0) (setFlag .n r.msb psw)

/-- The result of an addition or subtraction and the flags it produces, before any is written. -/
structure Sum (w : Nat) where
  r : BitVec w
  c : Bool
  h : Bool
  v : Bool
deriving DecidableEq, Repr

/-- `Add8` (R143). -/
def add8 (a m : Byte) (c : Bool) : Sum 8 :=
  let t := a.toNat + m.toNat + c.toNat
  let r := BitVec.ofNat 8 t
  { r := r, c := decide (t > 255), h := decide (a.toNat % 16 + m.toNat % 16 + c.toNat > 15),
    v := a.msb == m.msb && r.msb != a.msb }

/-- `Sub8` (R142): C = 1 and H = 1 mean no borrow. -/
def sub8 (a m : Byte) (c : Bool) : Sum 8 :=
  let borrow : Int := 1 - c.toNat
  let t : Int := a.toNat - m.toNat - borrow
  let r := BitVec.ofInt 8 t
  { r := r, c := decide (t ≥ 0), h := decide ((a.toNat % 16 : Nat) - (m.toNat % 16 : Nat) - borrow ≥ (0 : Int)),
    v := a.msb != m.msb && r.msb != a.msb }

/-- The result and the flags of an ADC or SBC, written to PSW: N, V, H, Z, C (R144, R164). -/
def writeSum8 (x : Sum 8) (psw : Byte) : Byte :=
  setNZ8 x.r (setFlag .c x.c (setFlag .h x.h (setFlag .v x.v psw)))

/-- The flags of CMP, CMPX and CMPY: N, Z and C of `Sub8(r, m, 1)` (R147 to R149). -/
def compare8 (r m psw : Byte) : Byte :=
  let x := sub8 r m true
  setNZ8 x.r (setFlag .c x.c psw)

/-- The 16-bit addition of R211 without H, which `addw` settles. -/
def addWord (a m : Word) : Word × Bool × Bool :=
  let t := a.toNat + m.toNat
  let r := BitVec.ofNat 16 t
  (r, decide (t > 65535), a.msb == m.msb && r.msb != a.msb)

/-- The 16-bit subtraction of R212 and R217 without H: the result, C (no borrow) and V. -/
def subWord (a m : Word) : Word × Bool × Bool :=
  let t : Int := (a.toNat : Int) - m.toNat
  let r := BitVec.ofInt 16 t
  (r, decide (t ≥ 0), a.msb != m.msb && r.msb != a.msb)

/-- `H16add` under `bit11` and under `bit3` (R211). -/
def halfAdd (rule : WordHRule) (a m : Word) : Bool :=
  match rule with
  | .bit11 => decide (a.toNat % 0x1000 + m.toNat % 0x1000 > 0xFFF)
  | .bit3 => decide (a.toNat % 16 + m.toNat % 16 > 15)

/-- `H16sub` under `bit11` and under `bit3`: 1 means no borrow (R217). -/
def halfSub (rule : WordHRule) (a m : Word) : Bool :=
  match rule with
  | .bit11 => decide (m.toNat % 0x1000 ≤ a.toNat % 0x1000)
  | .bit3 => decide (m.toNat % 16 ≤ a.toNat % 16)

/-- A flag two readings give: their common value, else the one the parameter picks, else (no parameter supplied) the
free bit (R160, R211, R217). -/
def settle {α : Type} (readings : α → Bool) (first second : α) (picked : Option α) (free : Bool) : Bool :=
  if readings first = readings second then readings first
  else match picked with
    | some rule => readings rule
    | none => free

/-- Whether `settle` needs the free bit. -/
def unsettled {α : Type} (readings : α → Bool) (first second : α) (picked : Option α) : Bool :=
  readings first != readings second && picked.isNone

/-- N, V, H, Z and C of a 16-bit addition or subtraction (R211, R217, D15). -/
def writeSum16 (r : Word) (c h v : Bool) (psw : Byte) : Byte :=
  setNZ16 r (setFlag .c c (setFlag .h h (setFlag .v v psw)))

/-- The flags of CMPW: N, Z and C (R212). -/
def compare16 (a m : Word) (psw : Byte) : Byte :=
  setNZ16 (subWord a m).1 (setFlag .c (subWord a m).2.1 psw)

/-- The two readings of Z after MUL (R160). -/
def mulZero (p : Word) : MulZWidth → Bool
  | .product => p == 0
  | .highByte => hiByte p == 0

/-- The conventional BCD adjustment after an addition: A and C (the default of `DAA_FN`, R151, log entry 29). -/
def daaAdjust (a : Byte) (c h : Bool) : Byte × Bool :=
  let high := c || decide (a.toNat > 0x99)
  let low := h || decide (a.toNat % 16 > 9)
  let a1 := if high then a + 0x60 else a
  (if low then a1 + 0x06 else a1, high)

/-- The conventional BCD adjustment after a subtraction: A and C (the default of `DAS_FN`, R152, log entry 29). -/
def dasAdjust (a : Byte) (c h : Bool) : Byte × Bool :=
  let high := !c || decide (a.toNat > 0x99)
  let low := !h || decide (a.toNat % 16 > 9)
  let a1 := if high then a - 0x60 else a
  (if low then a1 - 0x06 else a1, !high)

/-! The parameters of R7 that have a default, as the instructions use them. -/

/-- `DAA_FN` as supplied, else its default (R151, D16). -/
def daaFunction : Byte → Bool → Bool → Byte × Bool := Config.daaFn.getD daaAdjust

/-- `DAS_FN` as supplied, else its default (R152, D16). -/
def dasFunction : Byte → Bool → Bool → Byte × Bool := Config.dasFn.getD dasAdjust

/-- `BRK_PUSHED_B` as supplied, else its default 1 (R300, D17). -/
def brkPushedB : Bool := Config.brkPushedB.getD true

/-- `TXA_TXSP_FLAGS` as supplied, else its default TXA (R192, R193, D18). -/
def flaggedTransfer : FlaggedTransfer := Config.txaTxspFlags.getD .txa

/-- N and Z of a transferred byte, if this transfer is the one that writes them (R192, R193). -/
def transferFlags (t : FlaggedTransfer) (v psw : Byte) : Byte := if flaggedTransfer = t then setNZ8 v psw else psw

/-! Byte operations of the read-modify-write instructions: the operand and PSW before, the result and PSW after. -/

/-- ASL (R146). -/
def aslByte (v psw : Byte) : Byte × Byte :=
  let r := v <<< 1
  (r, setNZ8 r (setFlag .c v.msb psw))

/-- LSR (R159). -/
def lsrByte (v psw : Byte) : Byte × Byte :=
  let r := v >>> 1
  (r, setNZ8 r (setFlag .c (v.getLsbD 0) psw))

/-- ROL (R162). -/
def rolByte (v psw : Byte) : Byte × Byte :=
  let r := (v <<< 1) ||| (BitVec.ofBool (flag .c psw)).setWidth 8
  (r, setNZ8 r (setFlag .c v.msb psw))

/-- ROR (R163). -/
def rorByte (v psw : Byte) : Byte × Byte :=
  let r := (v >>> 1) ||| (BitVec.ofBool (flag .c psw) ++ 0#7)
  (r, setNZ8 r (setFlag .c (v.getLsbD 0) psw))

/-- INC (R157). -/
def incByte (v psw : Byte) : Byte × Byte := (v + 1, setNZ8 (v + 1) psw)

/-- DEC (R153). -/
def decByte (v psw : Byte) : Byte × Byte := (v - 1, setNZ8 (v - 1) psw)

/-- COM (R150). -/
def comByte (v psw : Byte) : Byte × Byte := (~~~v, setNZ8 (~~~v) psw)

/-- TCLR1: flags from A - (M), then the bits of A cleared (R253). -/
def tclrByte (a v psw : Byte) : Byte × Byte := (v &&& ~~~a, setNZ8 (a - v) psw)

/-- TSET1: flags from A - (M), then the bits of A set (R254). -/
def tsetByte (a v psw : Byte) : Byte × Byte := (v ||| a, setNZ8 (a - v) psw)

/-- The flags of BIT: N and V from the memory byte, Z from the conjunction with A (R235). -/
def bitTest (a m psw : Byte) : Byte :=
  setFlag .z (a &&& m == 0) (setFlag .v (testBit m 6) (setFlag .n (testBit m 7) psw))

/-! Two-operand byte operations of the accumulator: A, the operand and PSW before, A and PSW after. -/

/-- ADC (R144). -/
def adcByte (a m psw : Byte) : Byte × Byte :=
  let x := add8 a m (flag .c psw)
  (x.r, writeSum8 x psw)

/-- SBC (R164). -/
def sbcByte (a m psw : Byte) : Byte × Byte :=
  let x := sub8 a m (flag .c psw)
  (x.r, writeSum8 x psw)

/-- AND (R145). -/
def andByte (a m psw : Byte) : Byte × Byte := (a &&& m, setNZ8 (a &&& m) psw)

/-- OR (R161). -/
def orByte (a m psw : Byte) : Byte × Byte := (a ||| m, setNZ8 (a ||| m) psw)

/-- EOR (R156). -/
def eorByte (a m psw : Byte) : Byte × Byte := (a ^^^ m, setNZ8 (a ^^^ m) psw)

/-- LDA (R180). -/
def ldaByte (_a m psw : Byte) : Byte × Byte := (m, setNZ8 m psw)

end Sys2Proof.Machine
end

