-- ==== Sys2Proof/Machine/Memory.lean ====
section
/-! DEFINITION. RAM and program memory as one sorted list of bytes (spec/20_memory.md R61, R65; log entry 47). -/

namespace Sys2Proof.Machine

/-- The byte listed at an address. An address that is not listed has no value. -/
def Memory.read : Memory → Nat → Option Byte
  | [], _ => none
  | (a, v) :: rest, k => if a = k then some v else Memory.read rest k

/-- Set the byte at an address, keeping the list sorted. -/
def Memory.write : Memory → Nat → Byte → Memory
  | [], k, v => [(k, v)]
  | (a, w) :: rest, k, v =>
    if k < a then (k, v) :: (a, w) :: rest
    else if k = a then (k, v) :: rest
    else (a, w) :: Memory.write rest k v

/-- Forget every byte below an address. -/
def Memory.dropBelow : Memory → Nat → Memory
  | [], _ => []
  | (a, v) :: rest, k => if a < k then Memory.dropBelow rest k else (a, v) :: rest

/-- Every address is at least `lo` and below 10000H, and the addresses strictly rise. -/
def Memory.risingFrom : Nat → Memory → Bool
  | _, [] => true
  | lo, (a, _) :: rest => decide (lo ≤ a) && decide (a < 0x10000) && Memory.risingFrom (a + 1) rest

/-- The canonical form: addresses strictly rising, all of them 16-bit. An unlisted address has no value, so no
entry can repeat what an unlisted address reads as. -/
def Memory.wf (m : Memory) : Bool := Memory.risingFrom 0 m

/-- What a RAM address reads as (R61): the byte last written, else, since power-on, a free value that stays the same
until the byte is written (log entry 2). -/
def State.ramByte (s : State) (a : Word) : Byte :=
  (Memory.read s.mem a.toNat).getD (Config.powerOnByte s.powerCycle a.toNat)

/-- What a program-memory address reads as (R65): the byte programmed there, else a free value (log entry 3). -/
def State.romByte (s : State) (a : Word) : Byte :=
  (Memory.read s.mem a.toNat).getD (Config.unprogrammedByte a.toNat)

/-- The two vector bytes at an address of the program memory, low byte first (R66, R79). -/
def State.vectorAt (s : State) (v : Word) : Word := wordOf (s.romByte (v + 1)) (s.romByte v)

end Sys2Proof.Machine
end

