-- ==== Sys2Proof/Machine/Update.lean ====
section
/-! DEFINITION. Named updates of one component of the state. -/

namespace Sys2Proof.Machine

/-- The state with another program status word. -/
def State.withPsw (s : State) (v : Byte) : State := { s with psw := v }

/-- The state with another program counter. -/
def State.withPc (s : State) (v : Word) : State := { s with pc := v }

/-- The state with another stack pointer. -/
def State.withSp (s : State) (v : Byte) : State := { s with sp := v }

/-- The state with another memory. -/
def State.withMem (s : State) (v : Memory) : State := { s with mem := v }

/-- The state with other ports. -/
def State.withPorts (s : State) (v : Ports) : State := { s with ports := v }

/-- The state with other timers. -/
def State.withTimers (s : State) (v : Timers) : State := { s with timers := v }

/-- The state with other interrupt registers. -/
def State.withIrq (s : State) (v : Interrupts) : State := { s with irq := v }

/-- The state with another clock unit. -/
def State.withClock (s : State) (v : ClockUnit) : State := { s with clock := v }

/-- The state with another buzzer. -/
def State.withBuzzer (s : State) (v : Buzzer) : State := { s with buzzer := v }

/-- The state with another A/D converter. -/
def State.withAdc (s : State) (v : Adc) : State := { s with adc := v }

/-- The state with another power-fail detector. -/
def State.withPower (s : State) (v : PowerFail) : State := { s with power := v }

/-- The state in another run mode. -/
def State.withMode (s : State) (v : Mode) : State := { s with mode := v }

/-- The state with another list of events inside the instruction being executed. -/
def State.withMidEvents (s : State) (v : List Event) : State := { s with midEvents := v }

/-- The state with another script. -/
def State.withSchedule (s : State) (v : List Turn) : State := { s with schedule := v }

/-- `k` free values have been used. -/
def State.spend (s : State) (k : Nat) : State := { s with draws := s.draws + k }

end Sys2Proof.Machine
end

