-- ==== Sys2Proof/Machine/Registers.lean ====
section
/-! DEFINITION. The control registers of spec/10_state.md R40: their addresses, what a read returns and what a write
does (spec/61_peripherals.md, spec/60_exceptions.md), and the address map of spec/20_memory.md R60. -/

namespace Sys2Proof.Machine

/-! ## Free values -/

/-- The k-th free value not used yet (`draw` of R10; log entry 1). -/
def freeAt (s : State) (k : Nat) : Byte := Config.freeByte (s.draws + k)

/-- What a register shows: the bits of `value` under `mask` are settled, the others are open (R64, R75). -/
structure View where
  value : Byte
  mask  : Byte
deriving DecidableEq, Repr

/-- Every bit settled. -/
def View.known (v : Byte) : View := { value := v, mask := 0xFF }

/-- No bit settled. -/
def View.open : View := { value := 0, mask := 0 }

/-- The byte a view reads as: an open bit is a free value, used up only if there is one. -/
def View.sample (w : View) (s : State) : Byte × State :=
  if w.mask = 0xFF then (w.value, s)
  else ((w.value &&& w.mask) ||| (freeAt s 0 &&& ~~~w.mask), s.spend 1)

/-! ## The device (R2, R6) -/

/-- `PACKAGE` (R6). -/
inductive Package where
  | p24
  | p20
  | p16
deriving DecidableEq, Repr

/-- The package of a device (R6). -/
def Device.package : Device → Package
  | .hms87c1304A | .hms87c1302A => .p24
  | .hms87c1204A | .hms87c1202A => .p20
  | .hms87c1104A | .hms87c1102A => .p16

/-- `ROM_SIZE` (R6). -/
def Device.romSize : Device → Nat
  | .hms87c1304A | .hms87c1204A | .hms87c1104A => 4096
  | .hms87c1302A | .hms87c1202A | .hms87c1102A => 2048

/-- `ROM_BASE` = 10000H - `ROM_SIZE` (R60, D1). -/
def Device.romBase (d : Device) : Nat := 0x10000 - d.romSize

/-- Which RB pins the package has (R6). -/
def Package.pinsB : Package → Byte
  | .p24 | .p20 => 0x1F
  | .p16 => 0x15

/-- Which RC pins the package has (R6, R468). -/
def Package.pinsC : Package → Byte
  | .p24 | .p20 => 0x03
  | .p16 => 0x00

/-- Which RD pins the package has (R6, R469). -/
def Package.pinsD : Package → Byte
  | .p24 => 0x0F
  | .p20 | .p16 => 0x00

/-! ## The address map (R40, R44, R60) -/

/-- The control-register addresses of R40, each named by one of its registers. -/
inductive Sfr where
  | ra | raio | rb | rbio | rc | rcio | rd | rdio
  | rafunc | rbfunc | pupsel
  | tm0 | t0 | tm1 | tdr1 | t1 | pwm0hr | bur
  | ienh | ienl | irqh | irql | ieds
  | adcm | adcr | bitr | wdtr | pfdr
deriving DecidableEq, Repr

/-- The register at an address; the other addresses of 00C0H to 00FFH are unoccupied (R44). -/
def sfrAt (a : Word) : Option Sfr :=
  match a.toNat with
  | 0xC0 => some .ra
  | 0xC1 => some .raio
  | 0xC2 => some .rb
  | 0xC3 => some .rbio
  | 0xC4 => some .rc
  | 0xC5 => some .rcio
  | 0xC6 => some .rd
  | 0xC7 => some .rdio
  | 0xCA => some .rafunc
  | 0xCB => some .rbfunc
  | 0xCC => some .pupsel
  | 0xD0 => some .tm0
  | 0xD1 => some .t0
  | 0xD2 => some .tm1
  | 0xD3 => some .tdr1
  | 0xD4 => some .t1
  | 0xD5 => some .pwm0hr
  | 0xDE => some .bur
  | 0xE2 => some .ienh
  | 0xE3 => some .ienl
  | 0xE4 => some .irqh
  | 0xE5 => some .irql
  | 0xE6 => some .ieds
  | 0xEA => some .adcm
  | 0xEB => some .adcr
  | 0xEC => some .bitr
  | 0xED => some .wdtr
  | 0xEF => some .pfdr
  | _ => none

/-- The registers marked "byte" in R40, which a read-modify-write instruction may not touch (R43, R64, R561). DESIGN
CHOICE: 00D4H (`t1`) is not one of them in any mode, also while it reads as T1 or CDR1, because R491 accepts a
read-modify-write there; R561 and D29 read otherwise (log entry 56). -/
def Sfr.byteOnly : Sfr → Bool
  | .raio | .rbio | .rcio | .rdio | .rafunc | .rbfunc | .pupsel | .t0 | .tdr1 | .pwm0hr | .bur
  | .adcr | .bitr | .wdtr => true
  | .ra | .rb | .rc | .rd | .tm0 | .tm1 | .t1 | .ienh | .ienl | .irqh | .irql | .ieds | .adcm
  | .pfdr => false

/-- What lies at an address (R60). -/
inductive Region where
  | ram
  | sfr (r : Sfr)
  | rom
  | unimplemented
deriving DecidableEq, Repr

/-- The address map (R60, R63, R65). -/
def regionOf (d : Device) (a : Word) : Region :=
  if a.toNat < 0x80 then .ram
  else if d.romBase ≤ a.toNat then .rom
  else match sfrAt a with
    | some r => .sfr r
    | none => .unimplemented

/-! ## Mode bits -/

/-- TM0.CAP0 (R480). -/
def Timers.cap0 (t : Timers) : Bool := t.tm0.getLsbD 5

/-- TM0.T0CK2~0 (R480). -/
def Timers.t0ck (t : Timers) : BitVec 3 := t.tm0.extractLsb' 2 3

/-- TM0.T0CN (R480). -/
def Timers.t0cn (t : Timers) : Bool := t.tm0.getLsbD 1

/-- TM0.T0ST (R480). -/
def Timers.t0st (t : Timers) : Bool := t.tm0.getLsbD 0

/-- TM1.POL (R481). -/
def Timers.pol (t : Timers) : Bool := t.tm1.getLsbD 7

/-- TM1.16BIT (R481). -/
def Timers.bit16 (t : Timers) : Bool := t.tm1.getLsbD 6

/-- TM1.PWM0E (R481). -/
def Timers.pwm0e (t : Timers) : Bool := t.tm1.getLsbD 5

/-- TM1.CAP1 (R481). -/
def Timers.cap1 (t : Timers) : Bool := t.tm1.getLsbD 4

/-- TM1.T1CK1~0 (R481). -/
def Timers.t1ck (t : Timers) : BitVec 2 := t.tm1.extractLsb' 2 2

/-- TM1.T1CN (R481). -/
def Timers.t1cn (t : Timers) : Bool := t.tm1.getLsbD 1

/-- TM1.T1ST (R481). -/
def Timers.t1st (t : Timers) : Bool := t.tm1.getLsbD 0

/-- 16BIT = 1 without T1CK = 11, which the manual does not describe (R487). -/
def Timers.badPair (t : Timers) : Bool := t.bit16 && t.t1ck != 3

/-- `PERIOD` = PWM0HR[3:2] : T1PPR (R495). -/
def Timers.period (t : Timers) : BitVec 10 := t.pwm0hr.extractLsb' 2 2 ++ t.tdr1

/-- `DUTY_M` = PWM0HR[1:0] : T1PDR (R495). -/
def Timers.dutyM (t : Timers) : BitVec 10 := t.pwm0hr.extractLsb' 0 2 ++ t.t1pdr

/-- `Runs(TxCN, TxST)` (R494). -/
def timerRuns (cn st : Bool) : Bool :=
  match cn, st with
  | false, false => false
  | true, true => true
  | cn, st => Config.timerRunsOpen cn st

/-- `Starts(old CN, old ST, new CN, new ST)` (R494). -/
def timerStarts (oldCn oldSt newCn newSt : Bool) : Bool :=
  match oldCn, oldSt, newCn, newSt with
  | false, false, true, true => true
  | oc, os, nc, ns => Config.timerStartsOpen oc os nc ns

/-- RBFUNC.INT0I (R466). -/
def Ports.int0i (p : Ports) : Bool := p.rbfunc.getLsbD 2

/-- RBFUNC.INT1I (R466). -/
def Ports.int1i (p : Ports) : Bool := p.rbfunc.getLsbD 3

/-- PFDR.PFDIS (R520, log entry 41). -/
def PowerFail.pfdis (p : PowerFail) : Bool := p.pfdr.getLsbD 2

/-- PFDS after an event, where `PFDR_SEMANTICS` is supplied and says so; the other fields as last written (R520, log
entry 12). -/
def PowerFail.statusBy (after : PfdrSemantics → BitVec 4 → Bool) (p : PowerFail) : PowerFail :=
  match Config.pfdrSemantics with
  | none => p
  | some f => { p with pfdr := p.pfdr.extractLsb' 1 3 ++ BitVec.ofBool (after f p.pfdr) }

/-! ## Reads -/

/-- The pins of a port that the latch drives: an output, but for an open-drain output that holds 1 (R460, R470). -/
def drivenPins (dir latch openDrain : Byte) : Byte := dir &&& ~~~(openDrain &&& latch)

/-- What a port data register shows (R460, D39): a driven pin shows its latch bit, another pin the level the
environment gives it; a pin the package lacks, or whose alternate function is selected, is open. -/
def portView (present alternate dir latch openDrain pins : Byte) : View :=
  let driven := drivenPins dir latch openDrain
  { value := (driven &&& latch) ||| (~~~driven &&& pins), mask := present &&& ~~~alternate }

/-- The RA pins whose alternate function is selected: AN7 to AN1 (R463). -/
def Ports.alternateA (p : Ports) : Byte := p.rafunc &&& 0xFE

/-- The RB pins whose alternate function is selected (R463, R466): RB0 by AVREFS or ANSEL0, the others by RBFUNC. -/
def Ports.alternateB (p : Ports) : Byte :=
  p.rbfunc.setWidth 8 ||| (p.rafunc &&& 0x01)

/-- What a read of a control register shows (R41, R64, R75 and the register's own rule). -/
def sfrView (r : Sfr) (s : State) : View :=
  match r with
  | .ra =>
    portView 0xFF s.ports.alternateA s.ports.raio s.ports.latchA s.options.openDrainA s.ports.pinA
  | .rb =>
    portView s.device.package.pinsB s.ports.alternateB (s.ports.rbio.setWidth 8) (s.ports.latchB.setWidth 8)
      (s.options.openDrainB.setWidth 8) (s.ports.pinB.setWidth 8)
  | .rc =>
    portView s.device.package.pinsC 0 (s.ports.rcio.setWidth 8) (s.ports.latchC.setWidth 8)
      (s.options.openDrainC.setWidth 8) (s.ports.pinC.setWidth 8)
  | .rd =>
    portView s.device.package.pinsD 0 (s.ports.rdio.setWidth 8) (s.ports.latchD.setWidth 8)
      (s.options.openDrainD.setWidth 8) (s.ports.pinD.setWidth 8)
  | .raio | .rbio | .rcio | .rdio | .rafunc | .rbfunc | .pupsel | .tdr1 | .pwm0hr | .bur => .open
  | .tm0 => { value := s.timers.tm0.setWidth 8, mask := 0x3F }
  | .t0 =>
    if s.timers.cap0 then .known s.timers.cdr0
    else if s.timers.badPair then .open
    else .known s.timers.t0
  | .tm1 => .known s.timers.tm1
  | .t1 =>
    if s.timers.pwm0e then
      if s.timers.cap1 then .open else .known s.timers.t1pdr
    else if s.timers.cap1 || (s.timers.bit16 && s.timers.cap0) then .known s.timers.cdr1
    else if s.timers.badPair then .open
    else .known s.timers.t1
  | .ienh => { value := s.irq.ienh ++ 0#4, mask := 0xF0 }
  | .ienl => { value := s.irq.ienl ++ 0#5, mask := 0xE0 }
  | .irqh => { value := s.irq.irqh ++ 0#4, mask := 0xF0 }
  | .irql => { value := s.irq.irql ++ 0#5, mask := 0xE0 }
  | .ieds => { value := s.irq.ieds.setWidth 8, mask := 0x0F }
  | .adcm =>
    { value := 0#2 ++ (BitVec.ofBool s.adc.aden ++ (s.adc.ads ++ (0#1 ++ BitVec.ofBool s.adc.adsf))),
      mask := 0x3F }
  | .adcr => .known s.adc.adcr
  | .bitr => .known s.clock.bitr
  | .wdtr => .open
  | .pfdr => { value := s.power.pfdr.setWidth 8, mask := if Config.pfdrSemantics.isSome then 0x0F else 0x0E }

/-- A read of a control register: no side effect but the use of a free value (R74). -/
def readSfr (r : Sfr) (s : State) : Byte × State := (sfrView r s).sample s

/-! ## Writes -/

/-- Bits `lo` and up of a byte, as many as the field has. -/
def field (v : Byte) (lo width : Nat) : BitVec width := v.extractLsb' lo width

/-- A write to CKCTLR (R474). -/
def writeCkctlr (v : Byte) (c : ClockUnit) : ClockUnit :=
  { c with
    wakeup := v.getLsbD 6, rcwdt := v.getLsbD 5, wdton := v.getLsbD 4, bts := field v 0 3,
    bitr := if v.getLsbD 3 then 0 else c.bitr }

/-- The watchdog counter at 0, with nothing counted (R441, R442). -/
def ClockUnit.clearWatchdog (c : ClockUnit) : ClockUnit := { c with wdtcnt := 0, wdtWrapped := false }

/-- The watchdog counter after one overflow of BITR (R442). -/
def ClockUnit.countOverflow (c : ClockUnit) : ClockUnit :=
  { c with wdtcnt := c.wdtcnt + 1, wdtWrapped := c.wdtWrapped || c.wdtcnt == 0x7F }

/-- At least one overflow has been counted since the watchdog counter was cleared (R442). -/
def ClockUnit.counting (c : ClockUnit) : Bool := c.wdtWrapped || c.wdtcnt != 0

/-- The watchdog counter equals WDTR[6:0], and not because it has just been cleared (R442, log entry 44). -/
def ClockUnit.watchdogEqual (c : ClockUnit) : Bool := c.counting && c.wdtcnt == c.wdtr

/-- The environment may deliver the match: one overflow at least, and as many as WDTR[6:0] says, have been counted since
the counter was cleared (R442, log entry 44). -/
def ClockUnit.watchdogDue (c : ClockUnit) : Bool :=
  c.counting && (c.wdtWrapped || decide (c.wdtr.toNat ≤ c.wdtcnt.toNat))

/-- A write to WDTR (R441). -/
def writeWdtr (v : Byte) (c : ClockUnit) : ClockUnit :=
  let stored := { c with wdtr := field v 0 7 }
  if v.getLsbD 7 then stored.clearWatchdog else stored

/-- A write to TM0 (R480, R494). -/
def writeTm0 (v : Byte) (t : Timers) : Timers :=
  { t with
    tm0 := field v 0 6,
    t0 := if timerStarts t.t0cn t.t0st (v.getLsbD 1) (v.getLsbD 0) then 0 else t.t0 }

/-- A write to TM1 (R481, R494). A write that starts timer 1 also clears the PWM counter, timer 1 extended by two
bits (R496, log entry 26). -/
def writeTm1 (v : Byte) (t : Timers) : Timers :=
  let starts := timerStarts t.t1cn t.t1st (v.getLsbD 1) (v.getLsbD 0)
  { t with tm1 := v, t1 := if starts then 0 else t.t1, pwmCnt := if starts then 0 else t.pwmCnt }

/-- The converter does what `ADEN_SEMANTICS` leaves open: always with ADEN = 1 or where no value is supplied, else as the
parameter says (R510, R512, D42, log entry 49). -/
def adenAllows (what : AdenSemantics → Bool) (aden : Bool) : Bool :=
  aden || match Config.adenSemantics with
    | some f => what f
    | none => true

/-- A write to ADCM: ADST = 1 starts a conversion of the channel written (R510, R512). Whether that holds with ADEN = 0,
and whether a conversion in progress survives ADEN = 0, is `ADEN_SEMANTICS`'s to say; one that does not is cancelled
without ADSF or ADIF (log entry 49). -/
def writeAdcm (v : Byte) (a : Adc) : Adc :=
  let enable := v.getLsbD 5
  let stored := { a with aden := enable, ads := field v 2 3, busy := a.busy && adenAllows AdenSemantics.keeps enable }
  if v.getLsbD 1 && adenAllows AdenSemantics.starts enable then
    { stored with adsf := false, busy := true, channel := stored.ads }
  else stored

/-- A write to a control register (R41, R74 and the register's own rule). ADCR, which has no write side, is left as it
is here: `memWrite` stops on it (R64). -/
def writeSfr (r : Sfr) (v : Byte) (s : State) : State :=
  match r with
  | .ra => s.withPorts { s.ports with latchA := v }
  | .raio => s.withPorts { s.ports with raio := v }
  | .rb => s.withPorts { s.ports with latchB := field v 0 5 }
  | .rbio => s.withPorts { s.ports with rbio := field v 0 5 }
  | .rc => s.withPorts { s.ports with latchC := field v 0 2 }
  | .rcio => s.withPorts { s.ports with rcio := field v 0 2 }
  | .rd => s.withPorts { s.ports with latchD := field v 0 4 }
  | .rdio => s.withPorts { s.ports with rdio := field v 0 4 }
  | .rafunc => s.withPorts { s.ports with rafunc := v }
  | .rbfunc => s.withPorts { s.ports with rbfunc := field v 0 5 }
  | .pupsel => s.withPorts { s.ports with pupsel := field v 0 4 }
  | .tm0 => s.withTimers (writeTm0 v s.timers)
  | .t0 => s.withTimers { s.timers with tdr0 := v }
  | .tm1 => s.withTimers (writeTm1 v s.timers)
  | .tdr1 => s.withTimers { s.timers with tdr1 := v }
  | .t1 => s.withTimers { s.timers with t1pdr := v }
  | .pwm0hr => s.withTimers { s.timers with pwm0hr := field v 0 4 }
  | .bur => s.withBuzzer { s.buzzer with bur := v, cnt := 0 }
  | .ienh => s.withIrq { s.irq with ienh := field v 4 4 }
  | .ienl => s.withIrq { s.irq with ienl := field v 5 3 }
  | .irqh => s.withIrq { s.irq with irqh := field v 4 4 }
  | .irql => s.withIrq { s.irq with irql := field v 5 3 }
  | .ieds => s.withIrq { s.irq with ieds := field v 0 4 }
  | .adcm => s.withAdc (writeAdcm v s.adc)
  | .adcr => s
  | .bitr => s.withClock (writeCkctlr v s.clock)
  | .wdtr => s.withClock (writeWdtr v s.clock)
  | .pfdr => s.withPower { s.power with pfdr := field v 0 4 }

end Sys2Proof.Machine
end

