-- ==== Sys2Proof/Machine/Interrupts.lean ====
section
/-! DEFINITION. The seven interrupt sources with their request flags, enable bits, priorities and vectors
(spec/60_exceptions.md R403 to R410), and the acceptance test (R415, R416). -/

namespace Sys2Proof.Machine

/-- The maskable interrupt sources, in priority order (R410). -/
inductive IntSource where
  | int0 | int1 | timer0 | timer1 | adc | watchdog | basicInterval
deriving DecidableEq, Repr

/-- The vector address of a source (R410). -/
def IntSource.vector : IntSource → Word
  | .int0 => 0xFFFA
  | .int1 => 0xFFF8
  | .timer0 => 0xFFF6
  | .timer1 => 0xFFF4
  | .adc => 0xFFEA
  | .watchdog => 0xFFE8
  | .basicInterval => 0xFFE6

/-- The request flag of a source: IRQH bits 7:4, IRQL bits 7:5 (R405, R406). -/
def IntSource.requested (src : IntSource) (q : Interrupts) : Bool :=
  match src with
  | .int0 => q.irqh.getLsbD 3
  | .int1 => q.irqh.getLsbD 2
  | .timer0 => q.irqh.getLsbD 1
  | .timer1 => q.irqh.getLsbD 0
  | .adc => q.irql.getLsbD 2
  | .watchdog => q.irql.getLsbD 1
  | .basicInterval => q.irql.getLsbD 0

/-- The enable bit of a source: IENH bits 7:4, IENL bits 7:5 (R403, R404). -/
def IntSource.enabled (src : IntSource) (q : Interrupts) : Bool :=
  match src with
  | .int0 => q.ienh.getLsbD 3
  | .int1 => q.ienh.getLsbD 2
  | .timer0 => q.ienh.getLsbD 1
  | .timer1 => q.ienh.getLsbD 0
  | .adc => q.ienl.getLsbD 2
  | .watchdog => q.ienl.getLsbD 1
  | .basicInterval => q.ienl.getLsbD 0

/-- Hardware sets a request flag, whatever the enable bits hold (R407). -/
def IntSource.raise (src : IntSource) (q : Interrupts) : Interrupts :=
  match src with
  | .int0 => { q with irqh := q.irqh ||| 0b1000 }
  | .int1 => { q with irqh := q.irqh ||| 0b0100 }
  | .timer0 => { q with irqh := q.irqh ||| 0b0010 }
  | .timer1 => { q with irqh := q.irqh ||| 0b0001 }
  | .adc => { q with irql := q.irql ||| 0b100 }
  | .watchdog => { q with irql := q.irql ||| 0b010 }
  | .basicInterval => { q with irql := q.irql ||| 0b001 }

/-- Acceptance clears a request flag (R407, R420). -/
def IntSource.clear (src : IntSource) (q : Interrupts) : Interrupts :=
  match src with
  | .int0 => { q with irqh := q.irqh &&& 0b0111 }
  | .int1 => { q with irqh := q.irqh &&& 0b1011 }
  | .timer0 => { q with irqh := q.irqh &&& 0b1101 }
  | .timer1 => { q with irqh := q.irqh &&& 0b1110 }
  | .adc => { q with irql := q.irql &&& 0b011 }
  | .watchdog => { q with irql := q.irql &&& 0b101 }
  | .basicInterval => { q with irql := q.irql &&& 0b110 }

/-- A source requests and is enabled. -/
def IntSource.pending (src : IntSource) (q : Interrupts) : Bool := src.requested q && src.enabled q

/-- Every source, the highest priority first (R410). -/
def IntSource.byPriority : List IntSource :=
  [.int0, .int1, .timer0, .timer1, .adc, .watchdog, .basicInterval]

/-- The pending enabled source of the highest priority (R415, R416). -/
def highestPending (q : Interrupts) : Option IntSource := IntSource.byPriority.find? fun src => src.pending q

/-- The acceptance test of R415: I = 1 and a pending enabled source. -/
def acceptable (s : State) : Option IntSource := if flag .i s.psw then highestPending s.irq else none

/-- A request flag of a state is set by hardware. -/
def State.request (s : State) (src : IntSource) : State := s.withIrq (src.raise s.irq)

end Sys2Proof.Machine
end

