-- ==== Sys2Proof/Machine/Reset.lean ====
section
/-! DEFINITION. Reset (spec/70_reset_and_hazards.md R550 to R557). -/

namespace Sys2Proof.Machine

/-- The RAM bytes an instruction cut short was writing take any value (R557, U42, log entry 22). `admittedTorn` of
Machine/Run.lean has left no other byte in the list. -/
def writeTorn : Torn → Memory → Memory
  | [], m => m
  | (a, v) :: rest, m => writeTorn rest (Memory.write m a.toNat v)

/-- RAM and program memory after a reset: a power-on forgets the RAM, any other reset keeps it but for the torn bytes
(R557). -/
def resetMemory (cause : ResetCause) (torn : Torn) (m : Memory) : Memory :=
  match cause with
  | .powerOn => Memory.dropBelow m 0x80
  | .pin | .watchdog | .powerFail => writeTorn torn m

/-- The number of free values a reset uses. -/
def resetDraws : Nat := 10

/-- Reset of a running machine (R550, R556): control registers and hidden peripheral state take their reset values, what
R556 calls unspecified takes free values (log entry 23), and PC is loaded from the vector at FFFEH (R552). Pins, device
and options are not the machine's to reset. -/
def performReset (cause : ResetCause) (torn : Torn) (s : State) : State :=
  let base := State.reset
  { base with
    a := freeAt s 0, x := freeAt s 1, y := freeAt s 2, sp := freeAt s 3,
    pc := s.vectorAt 0xFFFE,
    mem := resetMemory cause torn s.mem,
    ports :=
      { base.ports with
        latchA := freeAt s 4, latchB := field (freeAt s 5) 0 5, latchC := field (freeAt s 6) 0 2,
        latchD := field (freeAt s 7) 0 4,
        pinA := s.ports.pinA, pinB := s.ports.pinB, pinC := s.ports.pinC, pinD := s.ports.pinD },
    timers := { base.timers with comp0 := testBit (freeAt s 8) 0 },
    irq := { base.irq with int0Seen := testBit (freeAt s 8) 1, int1Seen := testBit (freeAt s 8) 2 },
    buzzer := { base.buzzer with out := testBit (freeAt s 8) 3 },
    adc := { base.adc with adcr := freeAt s 9 },
    device := s.device, options := s.options, bootPending := false,
    schedule := s.schedule, midEvents := s.midEvents,
    powerCycle := match cause with
      | .powerOn => s.powerCycle + 1
      | .pin | .watchdog | .powerFail => s.powerCycle,
    draws := s.draws + resetDraws }

/-- The CPU reads the reset vector of the model's reset state: the first move of a run (R552, log entry 19). -/
def loadResetVector (s : State) : State := { s with pc := s.vectorAt 0xFFFE, bootPending := false }

end Sys2Proof.Machine
end

