-- ==== Sys2Proof/Machine/Events.lean ====
section
/-! DEFINITION. The environment events of spec/61_peripherals.md R531: what each changes and when it is enabled. An event
that is not enabled changes nothing. -/

namespace Sys2Proof.Machine

/-! ## Timers (R485 to R497) -/

/-- Timer 0 runs (R494), in a configuration the manual describes (R487). -/
def timer0Runs (t : Timers) : Bool := timerRuns t.t0cn t.t0st && !t.badPair

/-- Timer 1 runs by itself: it is not part of a pair (R486, R494). -/
def timer1Runs (t : Timers) : Bool := timerRuns t.t1cn t.t1st && !t.bit16

/-- One tick of timer 0 alone, or of the pair T1:T0 in 16-bit mode (R485, R487). -/
def timer0Tick (s : State) : State :=
  let t := s.timers
  if t.bit16 then
    let count := wordOf t.t1 t.t0
    if count = wordOf t.tdr1 t.tdr0 then
      (s.withTimers { t with t1 := 0, t0 := 0, comp0 := !t.comp0 }).request .timer0
    else s.withTimers { t with t1 := hiByte (count + 1), t0 := loByte (count + 1) }
  else if t.t0 = t.tdr0 then (s.withTimers { t with t0 := 0 }).request .timer0
  else s.withTimers { t with t0 := t.t0 + 1 }

/-- One tick of the PWM counter. At a period match the duty moves from master to slave, and T1IF is set or not: the
manual does not say (R496). -/
def pwmTick (s : State) : State :=
  let t := s.timers
  if t.pwmCnt = t.period then
    let matched := (s.withTimers { t with pwmCnt := 0, dutyS := t.dutyM }).spend 1
    if testBit (freeAt s 0) 0 then matched.request .timer1 else matched
  else s.withTimers { t with pwmCnt := t.pwmCnt + 1 }

/-- One tick of timer 1: PWM counter or 8-bit timer (R486, R496). -/
def timer1Tick (s : State) : State :=
  let t := s.timers
  if t.pwm0e then pwmTick s
  else if t.t1 = t.tdr1 then (s.withTimers { t with t1 := 0, comp0 := !t.comp0 }).request .timer1
  else s.withTimers { t with t1 := t.t1 + 1 }

/-- Timer 0 may tick from an internal clock (R485, R492, R531). -/
def t0ClockEnabled (s : State) : Bool :=
  timer0Runs s.timers && s.timers.t0ck != 7
    && (s.mode == .run || (s.mode == .wakeupTimer && s.timers.t0ck == 6))

/-- Timer 1 may tick from an internal clock (R486, R531). With T1CK = 11 and T0CK = 111 its clock is pin EC0. -/
def t1ClockEnabled (s : State) : Bool :=
  timer1Runs s.timers && s.mode == .run && !(s.timers.t1ck == 3 && s.timers.t0ck == 7)

/-- Timer 1 runs for a capture: by its own bits, in a configuration the manual describes (R487, R490, R494). -/
def capture1Runs (t : Timers) : Bool := timerRuns t.t1cn t.t1st && !t.badPair

/-! ## Pins: event counter, captures and external interrupts (R409, R489, R490) -/

/-- Whether a level change is an edge of the selected kind. -/
def selectedEdge (sel : EdgeSelect) (old new : Bool) : Bool :=
  match sel with
  | .none => false
  | .falling => old && !new
  | .rising => !old && new
  | .both => old != new

/-- A rising edge of EC0 clocks the timers that count it (R481, R489). -/
def ec0Edge (s : State) : State :=
  let s1 := if timer0Runs s.timers then timer0Tick s else s
  if timer1Runs s1.timers && s1.timers.t1ck == 3 then timer1Tick s1 else s1

/-- EC0 is counted: T0CK = 111, the pin an input, the CPU running (R489, R531). -/
def ec0Enabled (s : State) : Bool :=
  s.timers.t0ck == 7 && !s.ports.raio.getLsbD 0 && s.mode == .run

/-- `Capture0` (R490), in 16-bit mode of the pair. -/
def capture0 (s : State) : State :=
  let t := s.timers
  if t.bit16 then s.withTimers { t with cdr1 := t.t1, cdr0 := t.t0, t1 := 0, t0 := 0 }
  else s.withTimers { t with cdr0 := t.t0, t0 := 0 }

/-- `Capture1` (R490). -/
def capture1 (s : State) : State :=
  let t := s.timers
  s.withTimers { t with cdr1 := t.t1, t1 := 0 }

/-- The selected edge on INT0: a capture where one is enabled, and the request flag in every case (R409, R490). -/
def int0Edge (s : State) : State :=
  let s1 := if s.timers.cap0 && timer0Runs s.timers && s.mode == .run then capture0 s else s
  s1.request .int0

/-- The selected edge on INT1 (R409, R490). A capture needs TM1's own run bits only: the 16-bit mode that takes `T1Clock`
away (R487) does not take `Capture1` away (R482, R531). -/
def int1Edge (s : State) : State :=
  let s1 := if s.timers.cap1 && capture1Runs s.timers && s.mode == .run then capture1 s else s
  s1.request .int1

/-- The levels at the pins, and what the edge detectors have seen (R46, R460). -/
def takeLevels (ra : Byte) (rb : BitVec 5) (rc : BitVec 2) (rd : BitVec 4) (s : State) : State :=
  (s.withPorts { s.ports with pinA := ra, pinB := rb, pinC := rc, pinD := rd }).withIrq
    { s.irq with int0Seen := rb.getLsbD 2, int1Seen := rb.getLsbD 3 }

/-- The edges that occurred are served in the order EC0, INT0, INT1 (log entry 46). -/
def serveEdges (ec0 int0 int1 : Bool) (s : State) : State :=
  let s1 := if ec0 then ec0Edge s else s
  let s2 := if int0 then int0Edge s1 else s1
  if int1 then int1Edge s2 else s2

/-- INT0 sees an edge of the kind IEDS selects: RBFUNC.INT0I = 1, any mode (R408, R409). -/
def int0Occurs (s : State) (level : Bool) : Bool :=
  s.ports.int0i && selectedEdge (Config.iedsEncoding (s.irq.ieds.extractLsb' 0 2)) s.irq.int0Seen level

/-- INT1 sees an edge of the kind IEDS selects, where the package has its pin (R408, R409). -/
def int1Occurs (s : State) (level : Bool) : Bool :=
  s.ports.int1i && s.device.package.pinsB.getLsbD 3
    && selectedEdge (Config.iedsEncoding (s.irq.ieds.extractLsb' 2 2)) s.irq.int1Seen level

/-- The pins take new levels (R460); edges on EC0, INT0 and INT1 follow (R409, R489, R490). -/
def pinsEvent (ra : Byte) (rb : BitVec 5) (rc : BitVec 2) (rd : BitVec 4) (s : State) : State :=
  serveEdges (ec0Enabled s && !s.ports.pinA.getLsbD 0 && ra.getLsbD 0) (int0Occurs s (rb.getLsbD 2))
    (int1Occurs s (rb.getLsbD 3)) (takeLevels ra rb rc rd s)

/-! ## Basic interval timer and watchdog (R440 to R444, R475) -/

/-- The match of the watchdog counter (R442): by WDTON the CPU is reset, or WDTIF is set and the counter restarts from 0
(log entry 44). -/
def watchdogMatch (torn : Torn) (s : State) : State :=
  if s.clock.wdton then performReset .watchdog torn s
  else (s.withClock s.clock.clearWatchdog).request .watchdog

/-- `WdtTick` (R442): the watchdog counter counts an overflow of BITR, and where it then equals WDTR[6:0] it matches. -/
def watchdogTick (torn : Torn) (s : State) : State :=
  if s.clock.countOverflow.wdtcnt = s.clock.wdtr then watchdogMatch torn s
  else s.withClock s.clock.countOverflow

/-- After an instruction: a counter that equals WDTR[6:0] because the instruction wrote WDTR matches (R442, log
entry 44). The instruction is over, so a reset cuts none short. -/
def settleWatchdog (s : State) : State := if s.clock.watchdogEqual then watchdogMatch [] s else s

/-- `BitClock` where it is enabled (R475). -/
def bitTick (torn : Torn) (s : State) : State :=
  if s.clock.bitr = 0xFF then
    watchdogTick torn ((s.withClock { s.clock with bitr := 0 }).request .basicInterval)
  else s.withClock { s.clock with bitr := s.clock.bitr + 1 }

/-! ## Buzzer, A/D converter, power failure (R501, R512, R521) -/

/-- `BuzClock` where it is enabled (R501). -/
def buzzerTick (z : Buzzer) : Buzzer :=
  if z.cnt = field z.bur 0 6 then { z with cnt := 0, out := !z.out } else { z with cnt := z.cnt + 1 }

/-- `AdcDone` where it is enabled (R512). -/
def adcDone (result : Byte) (s : State) : State :=
  (s.withAdc { s.adc with adcr := result, adsf := true, busy := false }).request .adc

/-- A power failure while the detector is enabled: a reset or a halt of the system clock, as `PFDR_SEMANTICS` says of PFDR,
and either where it is not supplied (R521, log entries 12 and 51). -/
def powerFailEvent (torn : Torn) (s : State) : State :=
  let failed := s.withPower (s.power.statusBy PfdrSemantics.statusAfterFailure)
  let halted := failed.withPower { failed.power with clockHalted := true }
  match Config.pfdrSemantics with
  | some f =>
    match f.action s.power.pfdr with
    | .reset => performReset .powerFail torn s
    | .clockHalt => halted
    | .ignored => failed
  | none => if testBit (freeAt s 0) 0 then performReset .powerFail torn (s.spend 1) else halted.spend 1

/-- The supply is back above the detection level: a halted clock runs again (R521, log entry 51), and PFDS follows
`PFDR_SEMANTICS`. -/
def supplyRecovered (s : State) : State :=
  s.withPower { s.power.statusBy PfdrSemantics.statusAfterRecovery with clockHalted := false }

/-! ## All events (R531) -/

/-- One event while the system clock runs. -/
def fireRunning (e : Event) (s : State) : State :=
  match e with
  | .bitClock torn => if s.mode = .run ∨ s.mode = .rcWdt then bitTick torn s else s
  | .watchdogMatch torn =>
    if s.clock.watchdogDue ∧ (s.mode = .run ∨ s.mode = .rcWdt) then watchdogMatch torn s else s
  | .t0Clock => if t0ClockEnabled s then timer0Tick s else s
  | .t1Clock => if t1ClockEnabled s then timer1Tick s else s
  | .buzClock => if s.mode = .run then s.withBuzzer (buzzerTick s.buzzer) else s
  | .adcDone result =>
    if s.adc.busy ∧ s.mode = .run ∧ adenAllows AdenSemantics.completes s.adc.aden then adcDone result s else s
  | .pins ra rb rc rd => pinsEvent ra rb rc rd s
  | .powerFail torn => if s.power.pfdis then s else powerFailEvent torn s
  | .supplyRecovers => supplyRecovered s
  | .resetPin torn => performReset .pin torn s
  | .resetPowerOn => performReset .powerOn [] s

/-- One event. While a power failure halts the system clock only the recovery of the supply or a reset has an effect
(R521, log entry 51). -/
def fireEvent (e : Event) (s : State) : State :=
  if s.power.clockHalted then
    match e with
    | .supplyRecovers => supplyRecovered s
    | .resetPin torn => performReset .pin torn s
    | .resetPowerOn => performReset .powerOn [] s
    | _ => s
  else fireRunning e s

/-- An event that would reset the machine or halt its clock: such an event is a turn of its own (log entry 21). -/
def Event.disrupts (e : Event) (s : State) : Bool :=
  match e with
  | .resetPin _ | .resetPowerOn | .powerFail _ | .supplyRecovers => true
  | .bitClock _ =>
    s.clock.bitr == 0xFF && s.clock.wdtcnt + 1 == s.clock.wdtr && s.clock.wdton
  | .watchdogMatch _ => s.clock.watchdogDue && s.clock.wdton
  | .t0Clock | .t1Clock | .buzClock | .adcDone _ | .pins .. => false

/-- The peripheral events between the read and the write of one instruction, in their order (R73, R562). -/
def fireMid : List Event → State → State
  | [], s => s
  | e :: rest, s => fireMid rest (if e.disrupts s then s else fireEvent e s)

end Sys2Proof.Machine
end

