-- ==== Sys2Proof/Machine/Ops.lean ====
section
/-! DEFINITION. The named operations over memory and registers: reads and writes of the one address space
(spec/20_memory.md R60 to R75), read-modify-write (R70, R73), the stack (spec/10_state.md R25 to R27), taking an
exception and returning from one (spec/60_exceptions.md R420, spec/45_control.md R300, R313), and the power-saving modes
(R435 to R438). -/

namespace Sys2Proof.Machine

/-- The next operation after one that may stop. -/
def Res.bind {α β : Type} (r : Res α) (f : α → State → Res β) : Res β :=
  match r with
  | .ok v s => f v s
  | .fault e => .fault e

/-- The end of an instruction: its last state change after operations that may stop. -/
def Res.done {α : Type} (r : Res α) (f : α → State → State) : Result :=
  match r with
  | .ok v s => .next (f v s)
  | .fault e => .fault e

/-! ## Memory -/

/-- `MemRead` (R61 to R65). -/
def memRead (a : Word) (s : State) : Res Byte :=
  match regionOf s.device a with
  | .ram => .ok (s.ramByte a) s
  | .rom => .ok (s.romByte a) s
  | .sfr r => .ok (readSfr r s).1 (readSfr r s).2
  | .unimplemented => .fault (.unimplementedAddress a)

/-- `MemWrite` (R61 to R65). -/
def memWrite (a : Word) (v : Byte) (s : State) : Res Unit :=
  match regionOf s.device a with
  | .ram => .ok () (s.withMem (Memory.write s.mem a.toNat v))
  | .rom => .fault (.writeToProgramMemory a)
  | .sfr .adcr => .fault (.writeToReadOnlyRegister a)
  | .sfr r => .ok () (writeSfr r v s)
  | .unimplemented => .fault (.unimplementedAddress a)

/-- `MemFetch` (R77): instruction bytes come from the program memory only. -/
def memFetch (a : Word) (s : State) : Res Byte :=
  match regionOf s.device a with
  | .rom => .ok (s.romByte a) s
  | .ram | .sfr _ | .unimplemented => .fault (.fetchOutsideProgramMemory a)

/-- A read-modify-write instruction on a register marked "byte" stops (R64, R561). -/
def rmwCheck (a : Word) (s : State) : Res Unit :=
  match regionOf s.device a with
  | .sfr r => if r.byteOnly then .fault (.rmwOnWriteOnlyRegister a) else .ok () s
  | .ram | .rom | .unimplemented => .ok () s

/-- The peripheral events between the read and the write of the instruction being executed (R73, R562). -/
def betweenReadAndWrite (s : State) : State := fireMid s.midEvents s

/-- One read and one write of the same byte (R70, R141): the byte read, after the byte `f` makes of it is written. -/
def rmwByte (a : Word) (f : Byte → Byte) (s : State) : Res Byte :=
  (rmwCheck a s).bind fun _ s0 =>
  (memRead a s0).bind fun v s1 =>
  (memWrite a (f v) (betweenReadAndWrite s1)).bind fun _ s2 => .ok v s2

/-! ## The stack -/

/-- `Push8` (R27). -/
def push8 (v : Byte) (s : State) : Res Unit :=
  (memWrite (zext16 s.sp) v s).bind fun _ s1 => .ok () (s1.withSp (s.sp - 1))

/-- `Pop8` (R27). -/
def pop8 (s : State) : Res Byte := memRead (zext16 (s.sp + 1)) (s.withSp (s.sp + 1))

/-- Push a 16-bit value, high byte first (R66). -/
def pushWord (w : Word) (s : State) : Res Unit :=
  (push8 (hiByte w) s).bind fun _ s1 => push8 (loByte w) s1

/-- Pop a 16-bit value, low byte first (R312). -/
def popWord (s : State) : Res Word :=
  (pop8 s).bind fun lo s1 => (pop8 s1).bind fun hi s2 => .ok (wordOf hi lo) s2

/-- `PushPC` (R291). -/
def pushPc (s : State) : Res Unit := pushWord s.pc s

/-! ## Exceptions -/

/-- Taking an exception: PC is pushed, then a copy of PSW; the live PSW changes; PC is loaded from the vector
(R300, R420). -/
def takeException (pushed live : Byte) (vector : Word) (s : State) : Res Unit :=
  (pushPc s).bind fun _ s1 =>
  (push8 pushed s1).bind fun _ s2 => .ok () ((s2.withPsw live).withPc (s2.vectorAt vector))

/-- The return from an exception: PSW is popped, then PC (R313, R421). -/
def returnFromException (s : State) : Res Unit :=
  (pop8 s).bind fun psw s1 =>
  (popWord s1).bind fun pc s2 => .ok () ((s2.withPsw psw).withPc pc)

/-- The software interrupt (R300): B is set before PSW is pushed (parameter `BRK_PUSHED_B`), I is cleared after. DESIGN
CHOICE: with `BRK_PUSHED_B` = 0 the pushed byte is PSW as it was, so that B is pushed as 1 where it was 1 before BRK; the
spec does not say (log entry 15). -/
def softwareInterrupt (s : State) : Res Unit :=
  takeException (setFlag .b (brkPushedB || flag .b s.psw) s.psw)
    (setFlag .i false (setFlag .b true s.psw)) 0xFFDE s

/-- The acceptance sequence for one source (R420): I and the request flag are cleared, and PSW is pushed as it was. -/
def acceptInterrupt (src : IntSource) (s : State) : Res Unit :=
  takeException s.psw (setFlag .i false s.psw) src.vector (s.withIrq (src.clear s.irq))

/-! ## Power-saving modes -/

/-- The mode STOP enters, by CKCTLR bits 6 and 5 (R435). -/
def powerSavingMode (c : ClockUnit) : Mode :=
  if c.wakeup then .wakeupTimer else if c.rcwdt then .rcWdt else .stop

/-- The sources whose request flag releases a mode (R435, R437). -/
def releaseSources (s : State) : List IntSource :=
  match s.mode with
  | .run => []
  | .stop => [.int0, .int1]
  | .wakeupTimer => [.int0, .int1, .timer0]
  | .rcWdt => if s.clock.wdton then [.int0, .int1] else [.int0, .int1, .watchdog]

/-- Whether the mode is released now (R437): by a flag whose enable bit is set always, by a flag alone as the parameter
says, and if no value is supplied either way. -/
def releaseDecision (s : State) : Bool × State :=
  if (releaseSources s).any (fun src => src.pending s.irq) then (true, s)
  else if (releaseSources s).any (fun src => src.requested s.irq) then
    match Config.stopWakeNeedsIen with
    | some needsEnable => (!needsEnable, s)
    | none => (testBit (freeAt s 0) 0, s.spend 1)
  else (false, s)

/-- STOP (R436): the mode by CKCTLR. Where a release source's request flag is set already, the mode is left at once, "as if
it doesn't perform STOP instruction" (R437): the oscillator has not stopped and nothing else changes. -/
def enterPowerSaving (s : State) : State :=
  let decision := releaseDecision (s.withMode (powerSavingMode s.clock))
  if decision.1 then decision.2.withMode .run else decision.2

/-- The wake-up (R438): where the oscillator had stopped, BITR has counted from 00H to one overflow, which may have set
BITIF or not (log entry 28) and which the watchdog counts like every overflow (R442). No instruction is cut short by the
reset of a watchdog that matches here. -/
def wake (s : State) : State :=
  match s.mode with
  | .stop | .rcWdt =>
    let resumed := ((s.withMode .run).withClock { s.clock with bitr := 0 }).spend 1
    watchdogTick [] (if testBit (freeAt s 0) 0 then resumed.request .basicInterval else resumed)
  | .wakeupTimer | .run => s.withMode .run

end Sys2Proof.Machine
end

