-- ==== Sys2Proof/Machine/Operands.lean ====
section
/-! DEFINITION. The operand forms of spec/30_encoding.md R104 to R128 and the instruction shapes built on them. -/

namespace Sys2Proof.Machine

/-! ## Addresses -/

/-- `DP(d)` (R106): page 0 while G = 0; with G = 1 the manual gives the direct page no meaning (log entry 34). -/
def directPage (d : Byte) (s : State) : Res Word :=
  if flag .g s.psw then .fault .directPageWithGSet else .ok (zext16 d) s

/-- The bytes at `DP(d)` and `DP(d + 1)`, low byte first, the sum modulo 256 (R69, R112, R121, R210). -/
def readPair (d : Byte) (s : State) : Res Word :=
  (directPage d s).bind fun loAddr s0 =>
  (memRead loAddr s0).bind fun lo s1 =>
  (directPage (d + 1) s1).bind fun hiAddr s2 =>
  (memRead hiAddr s2).bind fun hi s3 => .ok (wordOf hi lo) s3

/-- Write the pair at `DP(d)` and `DP(d + 1)`, low byte first (R210). -/
def writePair (d : Byte) (w : Word) (s : State) : Res Unit :=
  (directPage d s).bind fun loAddr s0 =>
  (memWrite loAddr (loByte w) s0).bind fun _ s1 =>
  (directPage (d + 1) s1).bind fun hiAddr s2 => memWrite hiAddr (hiByte w) s2

/-- The memory operand forms of the data instructions (R112 to R123). -/
inductive Operand where
  /-- `dp`, R112. -/
  | dp (d : Byte)
  /-- `dp+X`, R116. -/
  | dpX (d : Byte)
  /-- `dp+Y`, R116. -/
  | dpY (d : Byte)
  /-- `!abs`, R113. -/
  | abs (a : Word)
  /-- `!abs+Y`, R117. -/
  | absY (a : Word)
  /-- `[dp+X]`, R122. -/
  | indX (d : Byte)
  /-- `[dp]+Y`, R123. -/
  | indY (d : Byte)
  /-- `{X}`, R114. -/
  | atX
deriving DecidableEq, Repr

/-- The effective address `ea` of an operand form. The indirect forms read their pointer. -/
def effectiveAddress (o : Operand) (s : State) : Res Word :=
  match o with
  | .dp d => directPage d s
  | .dpX d => directPage (d + s.x) s
  | .dpY d => directPage (d + s.y) s
  | .abs a => .ok a s
  | .absY a => .ok (a + zext16 s.y) s
  | .indX d => readPair (d + s.x) s
  | .indY d => (readPair d s).bind fun p s1 => .ok (p + zext16 s.y) s1
  | .atX => directPage s.x s

/-- A source operand: an immediate or a memory operand (R111, R140). -/
inductive Source where
  | imm (v : Byte)
  | mem (o : Operand)
deriving DecidableEq, Repr

/-- The value of a source operand (R140). -/
def readSource (src : Source) (s : State) : Res Byte :=
  match src with
  | .imm v => .ok v s
  | .mem o => (effectiveAddress o s).bind fun ea s1 => memRead ea s1

/-- `M.bit` (R231): the bit of the byte the operand bytes select. -/
def readMemoryBit (b1 b2 : Byte) (s : State) : Res Bool :=
  let m := Config.mbitDecode b1 b2
  (memRead m.addr s).bind fun v s1 => .ok (testBit v m.bit) s1

/-! ## Instruction shapes -/

/-- A, PSW and the operand make a new A and PSW: ADC, SBC, AND, OR, EOR, LDA (R140). -/
def accumulate (f : Byte → Byte → Byte → Byte × Byte) (src : Source) (s : State) : Result :=
  (readSource src s).done fun m s1 => { s1 with a := (f s.a m s.psw).1, psw := (f s.a m s.psw).2 }

/-- The operand changes PSW only: CMP, CMPX, CMPY, TST, BIT. -/
def testSource (f : Byte → Byte → Byte) (src : Source) (s : State) : Result :=
  (readSource src s).done fun m s1 => s1.withPsw (f m s.psw)

/-- LDX (R183). -/
def loadX (src : Source) (s : State) : Result :=
  (readSource src s).done fun m s1 => { s1 with x := m, psw := setNZ8 m s.psw }

/-- LDY (R184). -/
def loadY (src : Source) (s : State) : Result :=
  (readSource src s).done fun m s1 => { s1 with y := m, psw := setNZ8 m s.psw }

/-- A store: one write, no read of the destination, no flag (R70, R185). -/
def store (v : Byte) (o : Operand) (s : State) : Result :=
  ((effectiveAddress o s).bind fun ea s1 => memWrite ea v s1).done fun _ s1 => s1

/-- A read-modify-write of a memory byte; `f` gives the new byte and the new PSW (R141). -/
def modify (f : Byte → Byte → Byte × Byte) (o : Operand) (s : State) : Result :=
  ((effectiveAddress o s).bind fun ea s1 => rmwByte ea (fun v => (f v s.psw).1) s1).done
    fun v s1 => s1.withPsw (f v s.psw).2

/-- The accumulator form of a read-modify-write (R141). -/
def modifyA (f : Byte → Byte → Byte × Byte) (s : State) : Result :=
  .next { s with a := (f s.a s.psw).1, psw := (f s.a s.psw).2 }

/-- A decimal adjustment: a function of A, C and H gives the new A and C, N and Z come from the new A (R151, R152). -/
def adjustAccumulator (f : Byte → Bool → Bool → Byte × Bool) (s : State) : Result :=
  let adjusted := f s.a (flag .c s.psw) (flag .h s.psw)
  .next { s with a := adjusted.1, psw := setNZ8 adjusted.1 (setFlag .c adjusted.2 s.psw) }

/-- Exchange of A with a memory byte (R197). -/
def exchangeA (o : Operand) (s : State) : Result :=
  ((effectiveAddress o s).bind fun ea s1 => rmwByte ea (fun _ => s.a) s1).done
    fun v s1 => { s1 with a := v, psw := setNZ8 v s.psw }

/-- A 16-bit read-modify-write: both bytes are read before either is written (R70, R213, R214). Both addresses are checked
against R64 before either byte is read: DESIGN CHOICE, since the spec does not order R64's refusal of one byte against
R63's of the other (log entry 54). -/
def modifyPair (f : Word → Word) (d : Byte) (s : State) : Result :=
  ((directPage d s).bind fun loAddr s0 =>
   (rmwCheck loAddr s0).bind fun _ s1 =>
   (directPage (d + 1) s1).bind fun hiAddr s2 =>
   (rmwCheck hiAddr s2).bind fun _ s3 =>
   (readPair d s3).bind fun w s4 =>
   (writePair d (f w) (betweenReadAndWrite s4)).bind fun _ s5 => .ok w s5).done
    fun w s1 => s1.withPsw (setNZ16 (f w) s.psw)

/-- A bit instruction on C: the flag and the memory bit make the new C (R233, R241 to R247). -/
def carryWith (f : Bool → Bool → Bool) (b1 b2 : Byte) (s : State) : Result :=
  (readMemoryBit b1 b2 s).done fun m s1 => s1.withPsw (setFlag .c (f (flag .c s.psw) m) s.psw)

/-- `pc ← (pc) + rel` if a condition holds; PC is already at the next instruction (R270, log entry 30). -/
def branchIf (taken : Bool) (rel : Byte) (s : State) : State :=
  if taken then s.withPc (s.pc + sext16 rel) else s

/-- A subroutine call of a known target (R284, R289). -/
def callTo (target : Word) (s : State) : Result := (pushPc s).done fun _ s1 => s1.withPc target

/-- `YA` (R23). -/
def State.ya (s : State) : Word := wordOf s.y s.a

/-- `YA ← w` (R23). -/
def State.setYA (s : State) (w : Word) : State := { s with a := loByte w, y := hiByte w }

end Sys2Proof.Machine
end

