-- ==== Sys2Proof/Machine/ArithLogic.lean ====
section
/-! DEFINITION. Arithmetic and logic instructions (spec/40_arith_logic.md). PC is already past the instruction (R103). -/

namespace Sys2Proof.Machine

/-- `ADC #imm`, R144. -/
def execAdcImm (imm : Byte) (s : State) : Result := accumulate adcByte (.imm imm) s

/-- `ADC dp`, R144. -/
def execAdcDp (dp : Byte) (s : State) : Result := accumulate adcByte (.mem (.dp dp)) s

/-- `ADC dp+X`, R144. -/
def execAdcDpX (dp : Byte) (s : State) : Result := accumulate adcByte (.mem (.dpX dp)) s

/-- `ADC !abs`, R144. -/
def execAdcAbs (abs : Word) (s : State) : Result := accumulate adcByte (.mem (.abs abs)) s

/-- `ADC !abs+Y`, R144. -/
def execAdcAbsY (abs : Word) (s : State) : Result := accumulate adcByte (.mem (.absY abs)) s

/-- `ADC [dp+X]`, R144. -/
def execAdcIndX (dp : Byte) (s : State) : Result := accumulate adcByte (.mem (.indX dp)) s

/-- `ADC [dp]+Y`, R144. -/
def execAdcIndY (dp : Byte) (s : State) : Result := accumulate adcByte (.mem (.indY dp)) s

/-- `ADC {X}`, R144. -/
def execAdcAtX (s : State) : Result := accumulate adcByte (.mem .atX) s

/-- `SBC #imm`, R164. -/
def execSbcImm (imm : Byte) (s : State) : Result := accumulate sbcByte (.imm imm) s

/-- `SBC dp`, R164. -/
def execSbcDp (dp : Byte) (s : State) : Result := accumulate sbcByte (.mem (.dp dp)) s

/-- `SBC dp+X`, R164. -/
def execSbcDpX (dp : Byte) (s : State) : Result := accumulate sbcByte (.mem (.dpX dp)) s

/-- `SBC !abs`, R164. -/
def execSbcAbs (abs : Word) (s : State) : Result := accumulate sbcByte (.mem (.abs abs)) s

/-- `SBC !abs+Y`, R164. -/
def execSbcAbsY (abs : Word) (s : State) : Result := accumulate sbcByte (.mem (.absY abs)) s

/-- `SBC [dp+X]`, R164. -/
def execSbcIndX (dp : Byte) (s : State) : Result := accumulate sbcByte (.mem (.indX dp)) s

/-- `SBC [dp]+Y`, R164. -/
def execSbcIndY (dp : Byte) (s : State) : Result := accumulate sbcByte (.mem (.indY dp)) s

/-- `SBC {X}`, R164. -/
def execSbcAtX (s : State) : Result := accumulate sbcByte (.mem .atX) s

/-- `CMP #imm`, R147. -/
def execCmpImm (imm : Byte) (s : State) : Result := testSource (compare8 s.a) (.imm imm) s

/-- `CMP dp`, R147. -/
def execCmpDp (dp : Byte) (s : State) : Result := testSource (compare8 s.a) (.mem (.dp dp)) s

/-- `CMP dp+X`, R147. -/
def execCmpDpX (dp : Byte) (s : State) : Result := testSource (compare8 s.a) (.mem (.dpX dp)) s

/-- `CMP !abs`, R147. -/
def execCmpAbs (abs : Word) (s : State) : Result := testSource (compare8 s.a) (.mem (.abs abs)) s

/-- `CMP !abs+Y`, R147. -/
def execCmpAbsY (abs : Word) (s : State) : Result := testSource (compare8 s.a) (.mem (.absY abs)) s

/-- `CMP [dp+X]`, R147. -/
def execCmpIndX (dp : Byte) (s : State) : Result := testSource (compare8 s.a) (.mem (.indX dp)) s

/-- `CMP [dp]+Y`, R147. -/
def execCmpIndY (dp : Byte) (s : State) : Result := testSource (compare8 s.a) (.mem (.indY dp)) s

/-- `CMP {X}`, R147. -/
def execCmpAtX (s : State) : Result := testSource (compare8 s.a) (.mem .atX) s

/-- `OR #imm`, R161. -/
def execOrImm (imm : Byte) (s : State) : Result := accumulate orByte (.imm imm) s

/-- `OR dp`, R161. -/
def execOrDp (dp : Byte) (s : State) : Result := accumulate orByte (.mem (.dp dp)) s

/-- `OR dp+X`, R161. -/
def execOrDpX (dp : Byte) (s : State) : Result := accumulate orByte (.mem (.dpX dp)) s

/-- `OR !abs`, R161. -/
def execOrAbs (abs : Word) (s : State) : Result := accumulate orByte (.mem (.abs abs)) s

/-- `OR !abs+Y`, R161. -/
def execOrAbsY (abs : Word) (s : State) : Result := accumulate orByte (.mem (.absY abs)) s

/-- `OR [dp+X]`, R161. -/
def execOrIndX (dp : Byte) (s : State) : Result := accumulate orByte (.mem (.indX dp)) s

/-- `OR [dp]+Y`, R161. -/
def execOrIndY (dp : Byte) (s : State) : Result := accumulate orByte (.mem (.indY dp)) s

/-- `OR {X}`, R161. -/
def execOrAtX (s : State) : Result := accumulate orByte (.mem .atX) s

/-- `AND #imm`, R145. -/
def execAndImm (imm : Byte) (s : State) : Result := accumulate andByte (.imm imm) s

/-- `AND dp`, R145. -/
def execAndDp (dp : Byte) (s : State) : Result := accumulate andByte (.mem (.dp dp)) s

/-- `AND dp+X`, R145. -/
def execAndDpX (dp : Byte) (s : State) : Result := accumulate andByte (.mem (.dpX dp)) s

/-- `AND !abs`, R145. -/
def execAndAbs (abs : Word) (s : State) : Result := accumulate andByte (.mem (.abs abs)) s

/-- `AND !abs+Y`, R145. -/
def execAndAbsY (abs : Word) (s : State) : Result := accumulate andByte (.mem (.absY abs)) s

/-- `AND [dp+X]`, R145. -/
def execAndIndX (dp : Byte) (s : State) : Result := accumulate andByte (.mem (.indX dp)) s

/-- `AND [dp]+Y`, R145. -/
def execAndIndY (dp : Byte) (s : State) : Result := accumulate andByte (.mem (.indY dp)) s

/-- `AND {X}`, R145. -/
def execAndAtX (s : State) : Result := accumulate andByte (.mem .atX) s

/-- `EOR #imm`, R156. -/
def execEorImm (imm : Byte) (s : State) : Result := accumulate eorByte (.imm imm) s

/-- `EOR dp`, R156. -/
def execEorDp (dp : Byte) (s : State) : Result := accumulate eorByte (.mem (.dp dp)) s

/-- `EOR dp+X`, R156. -/
def execEorDpX (dp : Byte) (s : State) : Result := accumulate eorByte (.mem (.dpX dp)) s

/-- `EOR !abs`, R156. -/
def execEorAbs (abs : Word) (s : State) : Result := accumulate eorByte (.mem (.abs abs)) s

/-- `EOR !abs+Y`, R156. -/
def execEorAbsY (abs : Word) (s : State) : Result := accumulate eorByte (.mem (.absY abs)) s

/-- `EOR [dp+X]`, R156. -/
def execEorIndX (dp : Byte) (s : State) : Result := accumulate eorByte (.mem (.indX dp)) s

/-- `EOR [dp]+Y`, R156. -/
def execEorIndY (dp : Byte) (s : State) : Result := accumulate eorByte (.mem (.indY dp)) s

/-- `EOR {X}`, R156. -/
def execEorAtX (s : State) : Result := accumulate eorByte (.mem .atX) s

/-- `ASL A`, R146. -/
def execAslA (s : State) : Result := modifyA aslByte s

/-- `ASL dp`, R146. -/
def execAslDp (dp : Byte) (s : State) : Result := modify aslByte (.dp dp) s

/-- `ASL dp+X`, R146. -/
def execAslDpX (dp : Byte) (s : State) : Result := modify aslByte (.dpX dp) s

/-- `ASL !abs`, R146. -/
def execAslAbs (abs : Word) (s : State) : Result := modify aslByte (.abs abs) s

/-- `ROL A`, R162. -/
def execRolA (s : State) : Result := modifyA rolByte s

/-- `ROL dp`, R162. -/
def execRolDp (dp : Byte) (s : State) : Result := modify rolByte (.dp dp) s

/-- `ROL dp+X`, R162. -/
def execRolDpX (dp : Byte) (s : State) : Result := modify rolByte (.dpX dp) s

/-- `ROL !abs`, R162. -/
def execRolAbs (abs : Word) (s : State) : Result := modify rolByte (.abs abs) s

/-- `LSR A`, R159. -/
def execLsrA (s : State) : Result := modifyA lsrByte s

/-- `LSR dp`, R159. -/
def execLsrDp (dp : Byte) (s : State) : Result := modify lsrByte (.dp dp) s

/-- `LSR dp+X`, R159. -/
def execLsrDpX (dp : Byte) (s : State) : Result := modify lsrByte (.dpX dp) s

/-- `LSR !abs`, R159. -/
def execLsrAbs (abs : Word) (s : State) : Result := modify lsrByte (.abs abs) s

/-- `ROR A`, R163. -/
def execRorA (s : State) : Result := modifyA rorByte s

/-- `ROR dp`, R163. -/
def execRorDp (dp : Byte) (s : State) : Result := modify rorByte (.dp dp) s

/-- `ROR dp+X`, R163. -/
def execRorDpX (dp : Byte) (s : State) : Result := modify rorByte (.dpX dp) s

/-- `ROR !abs`, R163. -/
def execRorAbs (abs : Word) (s : State) : Result := modify rorByte (.abs abs) s

/-- `INC A`, R157. -/
def execIncA (s : State) : Result := modifyA incByte s

/-- `INC dp`, R157. -/
def execIncDp (dp : Byte) (s : State) : Result := modify incByte (.dp dp) s

/-- `INC dp+X`, R157. -/
def execIncDpX (dp : Byte) (s : State) : Result := modify incByte (.dpX dp) s

/-- `INC !abs`, R157. -/
def execIncAbs (abs : Word) (s : State) : Result := modify incByte (.abs abs) s

/-- `DEC A`, R153. -/
def execDecA (s : State) : Result := modifyA decByte s

/-- `DEC dp`, R153. -/
def execDecDp (dp : Byte) (s : State) : Result := modify decByte (.dp dp) s

/-- `DEC dp+X`, R153. -/
def execDecDpX (dp : Byte) (s : State) : Result := modify decByte (.dpX dp) s

/-- `DEC !abs`, R153. -/
def execDecAbs (abs : Word) (s : State) : Result := modify decByte (.abs abs) s

/-- `INC X`, R158. -/
def execIncX (s : State) : Result := .next { s with x := (incByte s.x s.psw).1, psw := (incByte s.x s.psw).2 }

/-- `INC Y`, R158. -/
def execIncY (s : State) : Result := .next { s with y := (incByte s.y s.psw).1, psw := (incByte s.y s.psw).2 }

/-- `DEC X`, R154. -/
def execDecX (s : State) : Result := .next { s with x := (decByte s.x s.psw).1, psw := (decByte s.x s.psw).2 }

/-- `DEC Y`, R154. -/
def execDecY (s : State) : Result := .next { s with y := (decByte s.y s.psw).1, psw := (decByte s.y s.psw).2 }

/-- `CMPX #imm`, R148. -/
def execCmpxImm (imm : Byte) (s : State) : Result := testSource (compare8 s.x) (.imm imm) s

/-- `CMPX dp`, R148. -/
def execCmpxDp (dp : Byte) (s : State) : Result := testSource (compare8 s.x) (.mem (.dp dp)) s

/-- `CMPX !abs`, R148. -/
def execCmpxAbs (abs : Word) (s : State) : Result := testSource (compare8 s.x) (.mem (.abs abs)) s

/-- `CMPY #imm`, R149. -/
def execCmpyImm (imm : Byte) (s : State) : Result := testSource (compare8 s.y) (.imm imm) s

/-- `CMPY dp`, R149. -/
def execCmpyDp (dp : Byte) (s : State) : Result := testSource (compare8 s.y) (.mem (.dp dp)) s

/-- `CMPY !abs`, R149. -/
def execCmpyAbs (abs : Word) (s : State) : Result := testSource (compare8 s.y) (.mem (.abs abs)) s

/-- `COM dp`, R150. -/
def execComDp (dp : Byte) (s : State) : Result := modify comByte (.dp dp) s

/-- `DAA`, R151, by the parameter `DAA_FN` (log entry 29). -/
def execDaa (s : State) : Result := adjustAccumulator daaFunction s

/-- `DAS`, R152, by the parameter `DAS_FN` (log entry 29). -/
def execDas (s : State) : Result := adjustAccumulator dasFunction s

/-- A, Y, N, Z and H after DIV where X = 0 or the quotient does not fit in 8 bits: what `DIV_FN` answers where it is
supplied, else free values (R155, D13, log entry 6). -/
def divOpen (s : State) : DivResult × State :=
  match Config.divFn with
  | some f => (f s.ya s.x, s)
  | none =>
    let free := freeAt s 2
    ({ a := freeAt s 0, y := freeAt s 1, n := testBit free 2, h := testBit free 0, z := testBit free 1 },
      s.spend 3)

/-- `DIV`, R155. Unsigned: quotient to A, remainder to Y, where the quotient fits in 8 bits, V = 0 and H a free value;
otherwise V = 1 and the rest as `divOpen` says (D13, log entry 6). -/
def execDiv (s : State) : Result :=
  if s.x ≠ 0 ∧ s.y.toNat < s.x.toNat then
    let quotient : Byte := BitVec.ofNat 8 (s.ya.toNat / s.x.toNat)
    let remainder : Byte := BitVec.ofNat 8 (s.ya.toNat % s.x.toNat)
    let psw := setFlag .h (testBit (freeAt s 0) 0) (setNZ8 quotient (setFlag .v false s.psw))
    .next ({ s with a := quotient, y := remainder, psw := psw }.spend 1)
  else
    let r := (divOpen s).1
    let psw := setFlag .v true (setFlag .h r.h (setFlag .z r.z (setFlag .n r.n s.psw)))
    .next { (divOpen s).2 with a := r.a, y := r.y, psw := psw }

/-- `MUL`, R160. Unsigned (D14, log entry 32); Z is settled by `MUL_Z_WIDTH` where its two readings differ (log entry 7). -/
def execMul (s : State) : Result :=
  let product : Word := BitVec.ofNat 16 (s.y.toNat * s.a.toNat)
  let zero := settle (mulZero product) .product .highByte Config.mulZWidth (testBit (freeAt s 0) 0)
  let draws := if unsettled (mulZero product) .product .highByte Config.mulZWidth then 1 else 0
  let psw := setFlag .z zero (setFlag .n product.msb s.psw)
  .next (((s.withPsw psw).setYA product).spend draws)

/-- `TST dp`, R165. -/
def execTstDp (dp : Byte) (s : State) : Result := testSource setNZ8 (.mem (.dp dp)) s

/-- `XCN`, R166. -/
def execXcn (s : State) : Result :=
  let swapped := s.a.extractLsb' 0 4 ++ s.a.extractLsb' 4 4
  .next { s with a := swapped, psw := setNZ8 swapped s.psw }

end Sys2Proof.Machine
end

