-- ==== Sys2Proof/Machine/Bit.lean ====
section
/-! DEFINITION. Bit manipulation instructions (spec/43_bit.md). PC is already past the instruction (R103). -/

namespace Sys2Proof.Machine

/-- `AND1 M.bit`, R233. -/
def execAnd1 (b1 : Byte) (b2 : Byte) (s : State) : Result := carryWith (fun c m => c && m) b1 b2 s

/-- `AND1B M.bit`, R234. -/
def execAnd1b (b1 : Byte) (b2 : Byte) (s : State) : Result := carryWith (fun c m => c && !m) b1 b2 s

/-- `EOR1 M.bit`, R241. -/
def execEor1 (b1 : Byte) (b2 : Byte) (s : State) : Result := carryWith (fun c m => c ^^ m) b1 b2 s

/-- `EOR1B M.bit`, R242. -/
def execEor1b (b1 : Byte) (b2 : Byte) (s : State) : Result := carryWith (fun c m => c ^^ !m) b1 b2 s

/-- `LDC M.bit`, R243. -/
def execLdc (b1 : Byte) (b2 : Byte) (s : State) : Result := carryWith (fun _ m => m) b1 b2 s

/-- `LDCB M.bit`, R244. -/
def execLdcb (b1 : Byte) (b2 : Byte) (s : State) : Result := carryWith (fun _ m => !m) b1 b2 s

/-- `NOT1 M.bit`, R245. -/
def execNot1 (b1 : Byte) (b2 : Byte) (s : State) : Result :=
  let m := Config.mbitDecode b1 b2
  modify (fun v psw => (v ^^^ bitMask m.bit, psw)) (.abs m.addr) s

/-- `OR1 M.bit`, R246. -/
def execOr1 (b1 : Byte) (b2 : Byte) (s : State) : Result := carryWith (fun c m => c || m) b1 b2 s

/-- `OR1B M.bit`, R247. -/
def execOr1b (b1 : Byte) (b2 : Byte) (s : State) : Result := carryWith (fun c m => c || !m) b1 b2 s

/-- `STC M.bit`, R252. -/
def execStc (b1 : Byte) (b2 : Byte) (s : State) : Result :=
  let m := Config.mbitDecode b1 b2
  modify (fun v psw => (if flag .c psw then v ||| bitMask m.bit else v &&& ~~~bitMask m.bit, psw)) (.abs m.addr) s

/-- `SETA1 A.bit`, R249. -/
def execSeta1 (b1 : Byte) (s : State) : Result := .next { s with a := s.a ||| bitMask (Config.abitDecode b1) }

/-- `CLRA1 A.bit`, R237. -/
def execClra1 (b1 : Byte) (s : State) : Result :=
  .next { s with a := s.a &&& ~~~bitMask (Config.abitDecode b1) }

/-- `BIT dp`, R235. -/
def execBitDp (dp : Byte) (s : State) : Result := testSource (bitTest s.a) (.mem (.dp dp)) s

/-- `BIT !abs`, R235. -/
def execBitAbs (abs : Word) (s : State) : Result := testSource (bitTest s.a) (.mem (.abs abs)) s

/-- `SET1 dp.bit`, R248. -/
def execSet1 (bit : BitVec 3) (dp : Byte) (s : State) : Result :=
  modify (fun v psw => (v ||| bitMask bit, psw)) (.dp dp) s

/-- `CLR1 dp.bit`, R236. -/
def execClr1 (bit : BitVec 3) (dp : Byte) (s : State) : Result :=
  modify (fun v psw => (v &&& ~~~bitMask bit, psw)) (.dp dp) s

/-- `CLRC`, R238. -/
def execClrc (s : State) : Result := .next (s.withPsw (setFlag .c false s.psw))

/-- `CLRG`, R239. -/
def execClrg (s : State) : Result := .next (s.withPsw (setFlag .g false s.psw))

/-- `CLRV`, R240. -/
def execClrv (s : State) : Result := .next (s.withPsw (setFlag .h false (setFlag .v false s.psw)))

/-- `SETC`, R250. -/
def execSetc (s : State) : Result := .next (s.withPsw (setFlag .c true s.psw))

/-- `SETG`, R251. -/
def execSetg (s : State) : Result := .next (s.withPsw (setFlag .g true s.psw))

/-- `TCLR1 !abs`, R253. -/
def execTclr1Abs (abs : Word) (s : State) : Result := modify (tclrByte s.a) (.abs abs) s

/-- `TSET1 !abs`, R254. -/
def execTset1Abs (abs : Word) (s : State) : Result := modify (tsetByte s.a) (.abs abs) s

end Sys2Proof.Machine
end

