-- ==== Sys2Proof/Machine/Branch.lean ====
section
/-! DEFINITION. Branch, jump and call instructions (spec/44_branch.md). PC is already past the instruction (R103). -/

namespace Sys2Proof.Machine

/-- `BBC A.bit,rel`, R271. -/
def execBbcA (bit : BitVec 3) (rel : Byte) (s : State) : Result := .next (branchIf (!testBit s.a bit) rel s)

/-- `BBC dp.bit,rel`, R272. A write-only register reads as a free value (log entry 24). -/
def execBbcDp (bit : BitVec 3) (dp : Byte) (rel : Byte) (s : State) : Result :=
  (readSource (.mem (.dp dp)) s).done fun m s1 => branchIf (!testBit m bit) rel s1

/-- `BBS A.bit,rel`, R273. -/
def execBbsA (bit : BitVec 3) (rel : Byte) (s : State) : Result := .next (branchIf (testBit s.a bit) rel s)

/-- `BBS dp.bit,rel`, R274. A write-only register reads as a free value (log entry 24). -/
def execBbsDp (bit : BitVec 3) (dp : Byte) (rel : Byte) (s : State) : Result :=
  (readSource (.mem (.dp dp)) s).done fun m s1 => branchIf (testBit m bit) rel s1

/-- `BCC rel`, R275. -/
def execBcc (rel : Byte) (s : State) : Result := .next (branchIf (!flag .c s.psw) rel s)

/-- `BCS rel`, R276. -/
def execBcs (rel : Byte) (s : State) : Result := .next (branchIf (flag .c s.psw) rel s)

/-- `BEQ rel`, R277. -/
def execBeq (rel : Byte) (s : State) : Result := .next (branchIf (flag .z s.psw) rel s)

/-- `BMI rel`, R278. -/
def execBmi (rel : Byte) (s : State) : Result := .next (branchIf (flag .n s.psw) rel s)

/-- `BNE rel`, R279. -/
def execBne (rel : Byte) (s : State) : Result := .next (branchIf (!flag .z s.psw) rel s)

/-- `BPL rel`, R280. -/
def execBpl (rel : Byte) (s : State) : Result := .next (branchIf (!flag .n s.psw) rel s)

/-- `BVC rel`, R282. -/
def execBvc (rel : Byte) (s : State) : Result := .next (branchIf (!flag .v s.psw) rel s)

/-- `BVS rel`, R283. -/
def execBvs (rel : Byte) (s : State) : Result := .next (branchIf (flag .v s.psw) rel s)

/-- `BRA rel`, R281. -/
def execBra (rel : Byte) (s : State) : Result := .next (branchIf true rel s)

/-- `CALL !abs`, R284. -/
def execCallAbs (abs : Word) (s : State) : Result := callTo abs s

/-- `CALL [dp]`, R285. The pushes come before the pointer reads (D22, log entry 36). -/
def execCallIndDp (dp : Byte) (s : State) : Result :=
  ((pushPc s).bind fun _ s1 => readPair dp s1).done fun target s1 => s1.withPc target

/-- `CBNE dp,rel`, R286. -/
def execCbneDp (dp : Byte) (rel : Byte) (s : State) : Result :=
  (readSource (.mem (.dp dp)) s).done fun m s1 => branchIf (s.a != m) rel s1

/-- `CBNE dp+X,rel`, R286. -/
def execCbneDpX (dp : Byte) (rel : Byte) (s : State) : Result :=
  (readSource (.mem (.dpX dp)) s).done fun m s1 => branchIf (s.a != m) rel s1

/-- `DBNE dp,rel`, R287. -/
def execDbneDp (dp : Byte) (rel : Byte) (s : State) : Result :=
  ((effectiveAddress (.dp dp) s).bind fun ea s1 => rmwByte ea (fun v => v - 1) s1).done
    fun v s1 => branchIf (v - 1 != 0) rel s1

/-- `DBNE Y,rel`, R287. -/
def execDbneY (rel : Byte) (s : State) : Result := .next (branchIf (s.y - 1 != 0) rel { s with y := s.y - 1 })

/-- `JMP !abs`, R288. -/
def execJmpAbs (abs : Word) (s : State) : Result := .next (s.withPc abs)

/-- `JMP [!abs]`, R288. -/
def execJmpIndAbs (abs : Word) (s : State) : Result :=
  ((memRead abs s).bind fun lo s1 => (memRead (abs + 1) s1).bind fun hi s2 => .ok (wordOf hi lo) s2).done
    fun target s1 => s1.withPc target

/-- `JMP [dp]`, R288. -/
def execJmpIndDp (dp : Byte) (s : State) : Result := (readPair dp s).done fun target s1 => s1.withPc target

/-- `PCALL upage`, R289. The target page is the spec's (D36, log entry 33). -/
def execPcall (upage : Byte) (s : State) : Result := callTo (wordOf 0xFF upage) s

/-- `TCALL n`, R290. -/
def execTcall (n : BitVec 4) (s : State) : Result :=
  (pushPc s).done fun _ s1 => s1.withPc (s1.vectorAt (0xFFDE - 2 * n.setWidth 16))

end Sys2Proof.Machine
end

