-- ==== Sys2Proof/Machine/Control.lean ====
section
/-! DEFINITION. Control and stack instructions (spec/45_control.md) and the unassigned opcode. PC is already past the instruction (R103). -/

namespace Sys2Proof.Machine

/-- `(unassigned)`, R131. The manual says nothing of this opcode (log entry 48). -/
def execUnassigned (_s : State) : Result := .refused .unassignedOpcode

/-- `BRK`, R300. -/
def execBrk (s : State) : Result := (softwareInterrupt s).done fun _ s1 => s1

/-- `DI`, R301. -/
def execDi (s : State) : Result := .next (s.withPsw (setFlag .i false s.psw))

/-- `EI`, R302. -/
def execEi (s : State) : Result := .next (s.withPsw (setFlag .i true s.psw))

/-- `NOP`, R303. -/
def execNop (s : State) : Result := .next s

/-- `POP A`, R304. -/
def execPopA (s : State) : Result := (pop8 s).done fun v s1 => { s1 with a := v }

/-- `POP X`, R305. -/
def execPopX (s : State) : Result := (pop8 s).done fun v s1 => { s1 with x := v }

/-- `POP Y`, R306. -/
def execPopY (s : State) : Result := (pop8 s).done fun v s1 => { s1 with y := v }

/-- `POP PSW`, R307. -/
def execPopPsw (s : State) : Result := (pop8 s).done fun v s1 => s1.withPsw v

/-- `PUSH A`, R308. -/
def execPushA (s : State) : Result := (push8 s.a s).done fun _ s1 => s1

/-- `PUSH X`, R309. -/
def execPushX (s : State) : Result := (push8 s.x s).done fun _ s1 => s1

/-- `PUSH Y`, R310. -/
def execPushY (s : State) : Result := (push8 s.y s).done fun _ s1 => s1

/-- `PUSH PSW`, R311. -/
def execPushPsw (s : State) : Result := (push8 s.psw s).done fun _ s1 => s1

/-- `RET`, R312. -/
def execRet (s : State) : Result := (popWord s).done fun target s1 => s1.withPc target

/-- `RETI`, R313. -/
def execReti (s : State) : Result := (returnFromException s).done fun _ s1 => s1

/-- `STOP`, R314. The CPU stops, unless a release source's flag is set already (R437); PC is already past STOP (R436). -/
def execStop (s : State) : Result := .next (enterPowerSaving s)

end Sys2Proof.Machine
end

