-- ==== Sys2Proof/Machine/RegMem.lean ====
section
/-! DEFINITION. Register and memory transfer instructions (spec/41_reg_mem.md). PC is already past the instruction (R103). -/

namespace Sys2Proof.Machine

/-- `LDA #imm`, R180. -/
def execLdaImm (imm : Byte) (s : State) : Result := accumulate ldaByte (.imm imm) s

/-- `LDA dp`, R180. -/
def execLdaDp (dp : Byte) (s : State) : Result := accumulate ldaByte (.mem (.dp dp)) s

/-- `LDA dp+X`, R180. -/
def execLdaDpX (dp : Byte) (s : State) : Result := accumulate ldaByte (.mem (.dpX dp)) s

/-- `LDA !abs`, R180. -/
def execLdaAbs (abs : Word) (s : State) : Result := accumulate ldaByte (.mem (.abs abs)) s

/-- `LDA !abs+Y`, R180. -/
def execLdaAbsY (abs : Word) (s : State) : Result := accumulate ldaByte (.mem (.absY abs)) s

/-- `LDA [dp+X]`, R180. -/
def execLdaIndX (dp : Byte) (s : State) : Result := accumulate ldaByte (.mem (.indX dp)) s

/-- `LDA [dp]+Y`, R180. -/
def execLdaIndY (dp : Byte) (s : State) : Result := accumulate ldaByte (.mem (.indY dp)) s

/-- `LDA {X}`, R180. -/
def execLdaAtX (s : State) : Result := accumulate ldaByte (.mem .atX) s

/-- `STA dp`, R185. -/
def execStaDp (dp : Byte) (s : State) : Result := store s.a (.dp dp) s

/-- `STA dp+X`, R185. -/
def execStaDpX (dp : Byte) (s : State) : Result := store s.a (.dpX dp) s

/-- `STA !abs`, R185. -/
def execStaAbs (abs : Word) (s : State) : Result := store s.a (.abs abs) s

/-- `STA !abs+Y`, R185. -/
def execStaAbsY (abs : Word) (s : State) : Result := store s.a (.absY abs) s

/-- `STA [dp+X]`, R185. -/
def execStaIndX (dp : Byte) (s : State) : Result := store s.a (.indX dp) s

/-- `STA [dp]+Y`, R185. -/
def execStaIndY (dp : Byte) (s : State) : Result := store s.a (.indY dp) s

/-- `STA {X}`, R185. -/
def execStaAtX (s : State) : Result := store s.a .atX s

/-- `LDM dp,#imm`, R182. -/
def execLdm (dp : Byte) (imm : Byte) (s : State) : Result := store imm (.dp dp) s

/-- `LDA {X}+`, R181. -/
def execLdaAtXInc (s : State) : Result :=
  (readSource (.mem .atX) s).done fun m s1 => { s1 with a := m, x := s.x + 1, psw := setNZ8 m s.psw }

/-- `STA {X}+`, R186. -/
def execStaAtXInc (s : State) : Result :=
  ((effectiveAddress .atX s).bind fun ea s1 => memWrite ea s.a s1).done fun _ s1 => { s1 with x := s.x + 1 }

/-- `LDX #imm`, R183. -/
def execLdxImm (imm : Byte) (s : State) : Result := loadX (.imm imm) s

/-- `LDX dp`, R183. -/
def execLdxDp (dp : Byte) (s : State) : Result := loadX (.mem (.dp dp)) s

/-- `LDX dp+Y`, R183. -/
def execLdxDpY (dp : Byte) (s : State) : Result := loadX (.mem (.dpY dp)) s

/-- `LDX !abs`, R183. -/
def execLdxAbs (abs : Word) (s : State) : Result := loadX (.mem (.abs abs)) s

/-- `LDY #imm`, R184. -/
def execLdyImm (imm : Byte) (s : State) : Result := loadY (.imm imm) s

/-- `LDY dp`, R184. -/
def execLdyDp (dp : Byte) (s : State) : Result := loadY (.mem (.dp dp)) s

/-- `LDY dp+X`, R184. -/
def execLdyDpX (dp : Byte) (s : State) : Result := loadY (.mem (.dpX dp)) s

/-- `LDY !abs`, R184. -/
def execLdyAbs (abs : Word) (s : State) : Result := loadY (.mem (.abs abs)) s

/-- `STX dp`, R187. -/
def execStxDp (dp : Byte) (s : State) : Result := store s.x (.dp dp) s

/-- `STX dp+Y`, R187. -/
def execStxDpY (dp : Byte) (s : State) : Result := store s.x (.dpY dp) s

/-- `STX !abs`, R187. -/
def execStxAbs (abs : Word) (s : State) : Result := store s.x (.abs abs) s

/-- `STY dp`, R188. -/
def execStyDp (dp : Byte) (s : State) : Result := store s.y (.dp dp) s

/-- `STY dp+X`, R188. -/
def execStyDpX (dp : Byte) (s : State) : Result := store s.y (.dpX dp) s

/-- `STY !abs`, R188. -/
def execStyAbs (abs : Word) (s : State) : Result := store s.y (.abs abs) s

/-- `TAX`, R189. -/
def execTax (s : State) : Result := .next { s with x := s.a, psw := setNZ8 s.a s.psw }

/-- `TAY`, R190. -/
def execTay (s : State) : Result := .next { s with y := s.a, psw := setNZ8 s.a s.psw }

/-- `TSPX`, R191. -/
def execTspx (s : State) : Result := .next { s with x := s.sp, psw := setNZ8 s.sp s.psw }

/-- `TXA`, R192. Flags by `TXA_TXSP_FLAGS` (log entry 37). -/
def execTxa (s : State) : Result := .next { s with a := s.x, psw := transferFlags .txa s.x s.psw }

/-- `TXSP`, R193. Flags by `TXA_TXSP_FLAGS` (log entry 37). -/
def execTxsp (s : State) : Result := .next { s with sp := s.x, psw := transferFlags .txsp s.x s.psw }

/-- `TYA`, R194. -/
def execTya (s : State) : Result := .next { s with a := s.y, psw := setNZ8 s.y s.psw }

/-- `XAX`, R195. -/
def execXax (s : State) : Result := .next { s with a := s.x, x := s.a }

/-- `XAY`, R196. -/
def execXay (s : State) : Result := .next { s with a := s.y, y := s.a }

/-- `XMA dp`, R197. -/
def execXmaDp (dp : Byte) (s : State) : Result := exchangeA (.dp dp) s

/-- `XMA dp+X`, R197. -/
def execXmaDpX (dp : Byte) (s : State) : Result := exchangeA (.dpX dp) s

/-- `XMA {X}`, R197. -/
def execXmaAtX (s : State) : Result := exchangeA .atX s

/-- `XYX`, R198. -/
def execXyx (s : State) : Result := .next { s with x := s.y, y := s.x }

end Sys2Proof.Machine
end

