-- ==== Sys2Proof/Machine/Word16.lean ====
section
/-! DEFINITION. 16-bit instructions (spec/42_word16.md). PC is already past the instruction (R103). -/

namespace Sys2Proof.Machine

/-- `ADDW dp`, R211. H is settled by `WORD_H_RULE` where its two readings differ (log entry 8). -/
def execAddwDp (dp : Byte) (s : State) : Result :=
  (readPair dp s).done fun w s1 =>
    let r := addWord s.ya w
    let half := settle (fun rule => halfAdd rule s.ya w) .bit11 .bit3 Config.wordHRule (testBit (freeAt s1 0) 0)
    let draws := if unsettled (fun rule => halfAdd rule s.ya w) .bit11 .bit3 Config.wordHRule then 1 else 0
    ((s1.withPsw (writeSum16 r.1 r.2.1 half r.2.2 s.psw)).setYA r.1).spend draws

/-- `CMPW dp`, R212. -/
def execCmpwDp (dp : Byte) (s : State) : Result :=
  (readPair dp s).done fun w s1 => s1.withPsw (compare16 s.ya w s.psw)

/-- `DECW dp`, R213. -/
def execDecwDp (dp : Byte) (s : State) : Result := modifyPair (fun w => w - 1) dp s

/-- `INCW dp`, R214. -/
def execIncwDp (dp : Byte) (s : State) : Result := modifyPair (fun w => w + 1) dp s

/-- `LDYA dp`, R215. -/
def execLdyaDp (dp : Byte) (s : State) : Result :=
  (readPair dp s).done fun w s1 => (s1.withPsw (setNZ16 w s.psw)).setYA w

/-- `STYA dp`, R216. -/
def execStyaDp (dp : Byte) (s : State) : Result := (writePair dp s.ya s).done fun _ s1 => s1

/-- `SUBW dp`, R217. H is settled by `WORD_H_RULE` where its two readings differ (log entry 8). -/
def execSubwDp (dp : Byte) (s : State) : Result :=
  (readPair dp s).done fun w s1 =>
    let r := subWord s.ya w
    let half := settle (fun rule => halfSub rule s.ya w) .bit11 .bit3 Config.wordHRule (testBit (freeAt s1 0) 0)
    let draws := if unsettled (fun rule => halfSub rule s.ya w) .bit11 .bit3 Config.wordHRule then 1 else 0
    ((s1.withPsw (writeSum16 r.1 r.2.1 half r.2.2 s.psw)).setYA r.1).spend draws

end Sys2Proof.Machine
end

