-- ==== Sys2Proof/Machine/Dispatch.lean ====
section
/-! DEFINITION. What each instruction does: one direct call of its meaning per constructor. -/

namespace Sys2Proof.Machine

def exec (i : Instr) (s : State) : Host.Outcome State Fault Refusal :=
  match i with
  | .unassigned => Sys2Proof.Machine.execUnassigned s
  | .adcImm imm => Sys2Proof.Machine.execAdcImm imm s
  | .adcDp dp => Sys2Proof.Machine.execAdcDp dp s
  | .adcDpX dp => Sys2Proof.Machine.execAdcDpX dp s
  | .adcAbs abs => Sys2Proof.Machine.execAdcAbs abs s
  | .adcAbsY abs => Sys2Proof.Machine.execAdcAbsY abs s
  | .adcIndX dp => Sys2Proof.Machine.execAdcIndX dp s
  | .adcIndY dp => Sys2Proof.Machine.execAdcIndY dp s
  | .adcAtX => Sys2Proof.Machine.execAdcAtX s
  | .sbcImm imm => Sys2Proof.Machine.execSbcImm imm s
  | .sbcDp dp => Sys2Proof.Machine.execSbcDp dp s
  | .sbcDpX dp => Sys2Proof.Machine.execSbcDpX dp s
  | .sbcAbs abs => Sys2Proof.Machine.execSbcAbs abs s
  | .sbcAbsY abs => Sys2Proof.Machine.execSbcAbsY abs s
  | .sbcIndX dp => Sys2Proof.Machine.execSbcIndX dp s
  | .sbcIndY dp => Sys2Proof.Machine.execSbcIndY dp s
  | .sbcAtX => Sys2Proof.Machine.execSbcAtX s
  | .cmpImm imm => Sys2Proof.Machine.execCmpImm imm s
  | .cmpDp dp => Sys2Proof.Machine.execCmpDp dp s
  | .cmpDpX dp => Sys2Proof.Machine.execCmpDpX dp s
  | .cmpAbs abs => Sys2Proof.Machine.execCmpAbs abs s
  | .cmpAbsY abs => Sys2Proof.Machine.execCmpAbsY abs s
  | .cmpIndX dp => Sys2Proof.Machine.execCmpIndX dp s
  | .cmpIndY dp => Sys2Proof.Machine.execCmpIndY dp s
  | .cmpAtX => Sys2Proof.Machine.execCmpAtX s
  | .orImm imm => Sys2Proof.Machine.execOrImm imm s
  | .orDp dp => Sys2Proof.Machine.execOrDp dp s
  | .orDpX dp => Sys2Proof.Machine.execOrDpX dp s
  | .orAbs abs => Sys2Proof.Machine.execOrAbs abs s
  | .orAbsY abs => Sys2Proof.Machine.execOrAbsY abs s
  | .orIndX dp => Sys2Proof.Machine.execOrIndX dp s
  | .orIndY dp => Sys2Proof.Machine.execOrIndY dp s
  | .orAtX => Sys2Proof.Machine.execOrAtX s
  | .andImm imm => Sys2Proof.Machine.execAndImm imm s
  | .andDp dp => Sys2Proof.Machine.execAndDp dp s
  | .andDpX dp => Sys2Proof.Machine.execAndDpX dp s
  | .andAbs abs => Sys2Proof.Machine.execAndAbs abs s
  | .andAbsY abs => Sys2Proof.Machine.execAndAbsY abs s
  | .andIndX dp => Sys2Proof.Machine.execAndIndX dp s
  | .andIndY dp => Sys2Proof.Machine.execAndIndY dp s
  | .andAtX => Sys2Proof.Machine.execAndAtX s
  | .eorImm imm => Sys2Proof.Machine.execEorImm imm s
  | .eorDp dp => Sys2Proof.Machine.execEorDp dp s
  | .eorDpX dp => Sys2Proof.Machine.execEorDpX dp s
  | .eorAbs abs => Sys2Proof.Machine.execEorAbs abs s
  | .eorAbsY abs => Sys2Proof.Machine.execEorAbsY abs s
  | .eorIndX dp => Sys2Proof.Machine.execEorIndX dp s
  | .eorIndY dp => Sys2Proof.Machine.execEorIndY dp s
  | .eorAtX => Sys2Proof.Machine.execEorAtX s
  | .ldaImm imm => Sys2Proof.Machine.execLdaImm imm s
  | .ldaDp dp => Sys2Proof.Machine.execLdaDp dp s
  | .ldaDpX dp => Sys2Proof.Machine.execLdaDpX dp s
  | .ldaAbs abs => Sys2Proof.Machine.execLdaAbs abs s
  | .ldaAbsY abs => Sys2Proof.Machine.execLdaAbsY abs s
  | .ldaIndX dp => Sys2Proof.Machine.execLdaIndX dp s
  | .ldaIndY dp => Sys2Proof.Machine.execLdaIndY dp s
  | .ldaAtX => Sys2Proof.Machine.execLdaAtX s
  | .staDp dp => Sys2Proof.Machine.execStaDp dp s
  | .staDpX dp => Sys2Proof.Machine.execStaDpX dp s
  | .staAbs abs => Sys2Proof.Machine.execStaAbs abs s
  | .staAbsY abs => Sys2Proof.Machine.execStaAbsY abs s
  | .staIndX dp => Sys2Proof.Machine.execStaIndX dp s
  | .staIndY dp => Sys2Proof.Machine.execStaIndY dp s
  | .staAtX => Sys2Proof.Machine.execStaAtX s
  | .ldm dp imm => Sys2Proof.Machine.execLdm dp imm s
  | .ldaAtXInc => Sys2Proof.Machine.execLdaAtXInc s
  | .staAtXInc => Sys2Proof.Machine.execStaAtXInc s
  | .aslA => Sys2Proof.Machine.execAslA s
  | .aslDp dp => Sys2Proof.Machine.execAslDp dp s
  | .aslDpX dp => Sys2Proof.Machine.execAslDpX dp s
  | .aslAbs abs => Sys2Proof.Machine.execAslAbs abs s
  | .rolA => Sys2Proof.Machine.execRolA s
  | .rolDp dp => Sys2Proof.Machine.execRolDp dp s
  | .rolDpX dp => Sys2Proof.Machine.execRolDpX dp s
  | .rolAbs abs => Sys2Proof.Machine.execRolAbs abs s
  | .lsrA => Sys2Proof.Machine.execLsrA s
  | .lsrDp dp => Sys2Proof.Machine.execLsrDp dp s
  | .lsrDpX dp => Sys2Proof.Machine.execLsrDpX dp s
  | .lsrAbs abs => Sys2Proof.Machine.execLsrAbs abs s
  | .rorA => Sys2Proof.Machine.execRorA s
  | .rorDp dp => Sys2Proof.Machine.execRorDp dp s
  | .rorDpX dp => Sys2Proof.Machine.execRorDpX dp s
  | .rorAbs abs => Sys2Proof.Machine.execRorAbs abs s
  | .incA => Sys2Proof.Machine.execIncA s
  | .incDp dp => Sys2Proof.Machine.execIncDp dp s
  | .incDpX dp => Sys2Proof.Machine.execIncDpX dp s
  | .incAbs abs => Sys2Proof.Machine.execIncAbs abs s
  | .decA => Sys2Proof.Machine.execDecA s
  | .decDp dp => Sys2Proof.Machine.execDecDp dp s
  | .decDpX dp => Sys2Proof.Machine.execDecDpX dp s
  | .decAbs abs => Sys2Proof.Machine.execDecAbs abs s
  | .incX => Sys2Proof.Machine.execIncX s
  | .incY => Sys2Proof.Machine.execIncY s
  | .decX => Sys2Proof.Machine.execDecX s
  | .decY => Sys2Proof.Machine.execDecY s
  | .cmpxImm imm => Sys2Proof.Machine.execCmpxImm imm s
  | .cmpxDp dp => Sys2Proof.Machine.execCmpxDp dp s
  | .cmpxAbs abs => Sys2Proof.Machine.execCmpxAbs abs s
  | .cmpyImm imm => Sys2Proof.Machine.execCmpyImm imm s
  | .cmpyDp dp => Sys2Proof.Machine.execCmpyDp dp s
  | .cmpyAbs abs => Sys2Proof.Machine.execCmpyAbs abs s
  | .comDp dp => Sys2Proof.Machine.execComDp dp s
  | .daa => Sys2Proof.Machine.execDaa s
  | .das => Sys2Proof.Machine.execDas s
  | .div => Sys2Proof.Machine.execDiv s
  | .mul => Sys2Proof.Machine.execMul s
  | .tstDp dp => Sys2Proof.Machine.execTstDp dp s
  | .xcn => Sys2Proof.Machine.execXcn s
  | .ldxImm imm => Sys2Proof.Machine.execLdxImm imm s
  | .ldxDp dp => Sys2Proof.Machine.execLdxDp dp s
  | .ldxDpY dp => Sys2Proof.Machine.execLdxDpY dp s
  | .ldxAbs abs => Sys2Proof.Machine.execLdxAbs abs s
  | .ldyImm imm => Sys2Proof.Machine.execLdyImm imm s
  | .ldyDp dp => Sys2Proof.Machine.execLdyDp dp s
  | .ldyDpX dp => Sys2Proof.Machine.execLdyDpX dp s
  | .ldyAbs abs => Sys2Proof.Machine.execLdyAbs abs s
  | .stxDp dp => Sys2Proof.Machine.execStxDp dp s
  | .stxDpY dp => Sys2Proof.Machine.execStxDpY dp s
  | .stxAbs abs => Sys2Proof.Machine.execStxAbs abs s
  | .styDp dp => Sys2Proof.Machine.execStyDp dp s
  | .styDpX dp => Sys2Proof.Machine.execStyDpX dp s
  | .styAbs abs => Sys2Proof.Machine.execStyAbs abs s
  | .tax => Sys2Proof.Machine.execTax s
  | .tay => Sys2Proof.Machine.execTay s
  | .tspx => Sys2Proof.Machine.execTspx s
  | .txa => Sys2Proof.Machine.execTxa s
  | .txsp => Sys2Proof.Machine.execTxsp s
  | .tya => Sys2Proof.Machine.execTya s
  | .xax => Sys2Proof.Machine.execXax s
  | .xay => Sys2Proof.Machine.execXay s
  | .xmaDp dp => Sys2Proof.Machine.execXmaDp dp s
  | .xmaDpX dp => Sys2Proof.Machine.execXmaDpX dp s
  | .xmaAtX => Sys2Proof.Machine.execXmaAtX s
  | .xyx => Sys2Proof.Machine.execXyx s
  | .addwDp dp => Sys2Proof.Machine.execAddwDp dp s
  | .cmpwDp dp => Sys2Proof.Machine.execCmpwDp dp s
  | .decwDp dp => Sys2Proof.Machine.execDecwDp dp s
  | .incwDp dp => Sys2Proof.Machine.execIncwDp dp s
  | .ldyaDp dp => Sys2Proof.Machine.execLdyaDp dp s
  | .styaDp dp => Sys2Proof.Machine.execStyaDp dp s
  | .subwDp dp => Sys2Proof.Machine.execSubwDp dp s
  | .and1 b1 b2 => Sys2Proof.Machine.execAnd1 b1 b2 s
  | .and1b b1 b2 => Sys2Proof.Machine.execAnd1b b1 b2 s
  | .eor1 b1 b2 => Sys2Proof.Machine.execEor1 b1 b2 s
  | .eor1b b1 b2 => Sys2Proof.Machine.execEor1b b1 b2 s
  | .ldc b1 b2 => Sys2Proof.Machine.execLdc b1 b2 s
  | .ldcb b1 b2 => Sys2Proof.Machine.execLdcb b1 b2 s
  | .not1 b1 b2 => Sys2Proof.Machine.execNot1 b1 b2 s
  | .or1 b1 b2 => Sys2Proof.Machine.execOr1 b1 b2 s
  | .or1b b1 b2 => Sys2Proof.Machine.execOr1b b1 b2 s
  | .stc b1 b2 => Sys2Proof.Machine.execStc b1 b2 s
  | .seta1 b1 => Sys2Proof.Machine.execSeta1 b1 s
  | .clra1 b1 => Sys2Proof.Machine.execClra1 b1 s
  | .bitDp dp => Sys2Proof.Machine.execBitDp dp s
  | .bitAbs abs => Sys2Proof.Machine.execBitAbs abs s
  | .set1 bit dp => Sys2Proof.Machine.execSet1 bit dp s
  | .clr1 bit dp => Sys2Proof.Machine.execClr1 bit dp s
  | .clrc => Sys2Proof.Machine.execClrc s
  | .clrg => Sys2Proof.Machine.execClrg s
  | .clrv => Sys2Proof.Machine.execClrv s
  | .setc => Sys2Proof.Machine.execSetc s
  | .setg => Sys2Proof.Machine.execSetg s
  | .tclr1Abs abs => Sys2Proof.Machine.execTclr1Abs abs s
  | .tset1Abs abs => Sys2Proof.Machine.execTset1Abs abs s
  | .bbcA bit rel => Sys2Proof.Machine.execBbcA bit rel s
  | .bbcDp bit dp rel => Sys2Proof.Machine.execBbcDp bit dp rel s
  | .bbsA bit rel => Sys2Proof.Machine.execBbsA bit rel s
  | .bbsDp bit dp rel => Sys2Proof.Machine.execBbsDp bit dp rel s
  | .bcc rel => Sys2Proof.Machine.execBcc rel s
  | .bcs rel => Sys2Proof.Machine.execBcs rel s
  | .beq rel => Sys2Proof.Machine.execBeq rel s
  | .bmi rel => Sys2Proof.Machine.execBmi rel s
  | .bne rel => Sys2Proof.Machine.execBne rel s
  | .bpl rel => Sys2Proof.Machine.execBpl rel s
  | .bvc rel => Sys2Proof.Machine.execBvc rel s
  | .bvs rel => Sys2Proof.Machine.execBvs rel s
  | .bra rel => Sys2Proof.Machine.execBra rel s
  | .callAbs abs => Sys2Proof.Machine.execCallAbs abs s
  | .callIndDp dp => Sys2Proof.Machine.execCallIndDp dp s
  | .cbneDp dp rel => Sys2Proof.Machine.execCbneDp dp rel s
  | .cbneDpX dp rel => Sys2Proof.Machine.execCbneDpX dp rel s
  | .dbneDp dp rel => Sys2Proof.Machine.execDbneDp dp rel s
  | .dbneY rel => Sys2Proof.Machine.execDbneY rel s
  | .jmpAbs abs => Sys2Proof.Machine.execJmpAbs abs s
  | .jmpIndAbs abs => Sys2Proof.Machine.execJmpIndAbs abs s
  | .jmpIndDp dp => Sys2Proof.Machine.execJmpIndDp dp s
  | .pcall upage => Sys2Proof.Machine.execPcall upage s
  | .tcall n => Sys2Proof.Machine.execTcall n s
  | .brk => Sys2Proof.Machine.execBrk s
  | .di => Sys2Proof.Machine.execDi s
  | .ei => Sys2Proof.Machine.execEi s
  | .nop => Sys2Proof.Machine.execNop s
  | .popA => Sys2Proof.Machine.execPopA s
  | .popX => Sys2Proof.Machine.execPopX s
  | .popY => Sys2Proof.Machine.execPopY s
  | .popPsw => Sys2Proof.Machine.execPopPsw s
  | .pushA => Sys2Proof.Machine.execPushA s
  | .pushX => Sys2Proof.Machine.execPushX s
  | .pushY => Sys2Proof.Machine.execPushY s
  | .pushPsw => Sys2Proof.Machine.execPushPsw s
  | .ret => Sys2Proof.Machine.execRet s
  | .reti => Sys2Proof.Machine.execReti s
  | .stop => Sys2Proof.Machine.execStop s

end Sys2Proof.Machine
end

