-- ==== Sys2Proof/Machine/Outputs.lean ====
section
/-! DEFINITION. What the machine shows to its environment: the levels it drives on its pins (spec/61_peripherals.md R460,
R470, R488, R496, R497, R501), pull-ups (R467), and the clock ratios its control registers select (R474, R480, R481,
R500). No step reads any of these: they are the outputs of the model. -/

namespace Sys2Proof.Machine

/-- What the machine does to a pin. -/
inductive Drive where
  /-- The pin is left to the environment. -/
  | floating
  /-- The pin is left to the environment, with a pull-up (R467). -/
  | pulledUp
  /-- The pin is driven to a level. -/
  | level (v : Bool)
deriving DecidableEq, Repr

/-- A port pin without alternate function (R460, R470). -/
def portDrive (dir latch openDrain : Byte) (bit : Nat) : Drive :=
  if (drivenPins dir latch openDrain).getLsbD bit then .level (latch.getLsbD bit) else .floating

/-- An undriven pin shows its pull-up if one is selected (R467). -/
def Drive.withPullUp (d : Drive) (pullUp : Bool) : Drive :=
  match d with
  | .floating => if pullUp then .pulledUp else .floating
  | .pulledUp | .level _ => d

/-- Pin RAn (R461, R463): an analog input is not driven. -/
def driveRA (s : State) (bit : Nat) : Drive :=
  if s.ports.alternateA.getLsbD bit then .floating
  else portDrive s.ports.raio s.ports.latchA s.options.openDrainA bit

/-- Whether the PWM output is in the duty portion of its period (R496, R497). Where the period is below the duty, and where
both are 0, the manual settles nothing (log entry 27). -/
def pwmActive (t : Timers) : Bool :=
  if t.period < t.dutyS ∨ (t.period = 0 ∧ t.dutyS = 0) then Config.pwmOpenLevel t.period t.dutyS
  else if t.dutyS = 0 then false
  else if t.dutyS = t.period then true
  else decide (t.pwmCnt < t.dutyS)

/-- The level of the PWM output: POL says whether the duty portion is high (R497). -/
def pwmLevel (t : Timers) : Bool := if pwmActive t then t.pol else !t.pol

/-- Pin RBn (R466, R488, R496, R501): RB4 carries the PWM or compare output, RB1 the buzzer, RB2 and RB3 are interrupt
inputs, RB0 an analog input or the reference, where RBFUNC or ANSEL0 says so. The PWM, compare and buzzer outputs drive both
levels whatever the open-drain selection holds: DESIGN CHOICE, since which pins that option affects is lost (R470, log
entry 55). -/
def driveRB (s : State) (bit : Nat) : Drive :=
  if !s.device.package.pinsB.getLsbD bit then .floating
  else if s.ports.alternateB.getLsbD bit then
    match bit with
    | 4 => .level (if s.timers.pwm0e then pwmLevel s.timers else s.timers.comp0)
    | 1 => .level s.buzzer.out
    | 2 => Drive.floating.withPullUp (s.ports.pupsel.getLsbD 0)
    | 3 => Drive.floating.withPullUp (s.ports.pupsel.getLsbD 1)
    | _ => .floating
  else
    (portDrive (s.ports.rbio.setWidth 8) (s.ports.latchB.setWidth 8) (s.options.openDrainB.setWidth 8)
        bit).withPullUp
      (match bit with
       | 2 => s.ports.pupsel.getLsbD 0
       | 3 => s.ports.pupsel.getLsbD 1
       | _ => false)

/-- Pin RCn (R468). -/
def driveRC (s : State) (bit : Nat) : Drive :=
  if s.device.package.pinsC.getLsbD bit then
    portDrive (s.ports.rcio.setWidth 8) (s.ports.latchC.setWidth 8) (s.options.openDrainC.setWidth 8) bit
  else .floating

/-- Pin RDn (R469): PUPSEL2 is the pull-up of RD0, PUPSEL3 that of RD1 (R467). -/
def driveRD (s : State) (bit : Nat) : Drive :=
  if s.device.package.pinsD.getLsbD bit then
    (portDrive (s.ports.rdio.setWidth 8) (s.ports.latchD.setWidth 8) (s.options.openDrainD.setWidth 8)
        bit).withPullUp
      (match bit with
       | 0 => s.ports.pupsel.getLsbD 2
       | 1 => s.ports.pupsel.getLsbD 3
       | _ => false)
  else .floating

/-- The ratio of the prescaler output that clocks BITR (R474, log entry 42). -/
def bitrRatio (bts : BitVec 3) : Nat := 8 * 2 ^ bts.toNat

/-- The clock of timer 0: a ratio of the prescaler, or the rising edges of EC0 (R480, log entry 42). -/
def timer0Ratio (t0ck : BitVec 3) : Option Nat :=
  match t0ck.toNat with
  | 0 => some 2
  | 1 => some 4
  | 2 => some 8
  | 3 => some 32
  | 4 => some 128
  | 5 => some 512
  | 6 => some 2048
  | _ => none

/-- The clock of timer 1: a ratio of the prescaler, or the clock of timer 0 (R481, log entry 42). -/
def timer1Ratio (t1ck : BitVec 2) : Option Nat :=
  match t1ck.toNat with
  | 0 => some 1
  | 1 => some 2
  | 2 => some 8
  | _ => none

/-- The prescaler ratio of the buzzer (R500, open parameter `BUCK_ENCODING`). -/
def buzzerRatio (z : Buzzer) : Nat := Config.buckEncoding (z.bur.extractLsb' 6 2)

/-- Whether the A/D reference is the pin AV_REF and not V_DD (R466, R513). -/
def analogReferenceIsPin (p : Ports) : Bool := p.rbfunc.getLsbD 0

/-- Whether channel ANn is the function of its pin; AN0 gives way to AV_REF (R463, R466, R513). -/
def analogInputSelected (p : Ports) (channel : BitVec 3) : Bool :=
  p.rafunc.getLsbD channel.toNat && !(channel == 0 && analogReferenceIsPin p)

end Sys2Proof.Machine
end

