-- ==== Sys2Proof/Machine/Writes.lean ====
section
/-! DEFINITION. Which bytes an instruction writes: the operand it stores to, the pair, or the stack bytes
(spec/20_memory.md R70, spec/30_encoding.md R128). A reset that cuts the instruction short leaves these bytes open
(spec/70_reset_and_hazards.md R557). -/

namespace Sys2Proof.Machine

/-! ## Instructions by what they write -/

/-- What a store stores. -/
inductive StoreValue where
  | a | x | y
  | imm (v : Byte)
deriving DecidableEq, Repr

/-- The byte a store stores. -/
def StoreValue.of (v : StoreValue) (s : State) : Byte :=
  match v with
  | .a => s.a
  | .x => s.x
  | .y => s.y
  | .imm b => b

/-- The plain stores: STA, STX, STY and LDM. -/
def storeForm : Instr → Option (StoreValue × Operand)
  | .staDp dp => some (.a, (.dp dp))
  | .staDpX dp => some (.a, (.dpX dp))
  | .staAbs abs => some (.a, (.abs abs))
  | .staAbsY abs => some (.a, (.absY abs))
  | .staIndX dp => some (.a, (.indX dp))
  | .staIndY dp => some (.a, (.indY dp))
  | .staAtX => some (.a, .atX)
  | .ldm dp imm => some (.imm imm, .dp dp)
  | .stxDp dp => some (.x, (.dp dp))
  | .stxDpY dp => some (.x, (.dpY dp))
  | .stxAbs abs => some (.x, (.abs abs))
  | .styDp dp => some (.y, (.dp dp))
  | .styDpX dp => some (.y, (.dpX dp))
  | .styAbs abs => some (.y, (.abs abs))
  | _ => none

/-- The operations on one memory byte that is read and written. -/
inductive RmwOp where
  | asl | rol | lsr | ror | inc | dec | com | tclr1 | tset1 | xma
  | set1 (bit : BitVec 3)
  | clr1 (bit : BitVec 3)
  | not1 (bit : BitVec 3)
  | stc (bit : BitVec 3)
deriving DecidableEq, Repr

/-- The instructions that read and write one memory byte (R128), but for DBNE. -/
def rmwForm : Instr → Option (RmwOp × Operand)
  | .aslDp dp => some (.asl, (.dp dp))
  | .aslDpX dp => some (.asl, (.dpX dp))
  | .aslAbs abs => some (.asl, (.abs abs))
  | .rolDp dp => some (.rol, (.dp dp))
  | .rolDpX dp => some (.rol, (.dpX dp))
  | .rolAbs abs => some (.rol, (.abs abs))
  | .lsrDp dp => some (.lsr, (.dp dp))
  | .lsrDpX dp => some (.lsr, (.dpX dp))
  | .lsrAbs abs => some (.lsr, (.abs abs))
  | .rorDp dp => some (.ror, (.dp dp))
  | .rorDpX dp => some (.ror, (.dpX dp))
  | .rorAbs abs => some (.ror, (.abs abs))
  | .incDp dp => some (.inc, (.dp dp))
  | .incDpX dp => some (.inc, (.dpX dp))
  | .incAbs abs => some (.inc, (.abs abs))
  | .decDp dp => some (.dec, (.dp dp))
  | .decDpX dp => some (.dec, (.dpX dp))
  | .decAbs abs => some (.dec, (.abs abs))
  | .comDp dp => some (.com, (.dp dp))
  | .xmaDp dp => some (.xma, (.dp dp))
  | .xmaDpX dp => some (.xma, (.dpX dp))
  | .xmaAtX => some (.xma, .atX)
  | .not1 b1 b2 => some (.not1 (Config.mbitDecode b1 b2).bit, .abs (Config.mbitDecode b1 b2).addr)
  | .stc b1 b2 => some (.stc (Config.mbitDecode b1 b2).bit, .abs (Config.mbitDecode b1 b2).addr)
  | .set1 bit dp => some (.set1 bit, .dp dp)
  | .clr1 bit dp => some (.clr1 bit, .dp dp)
  | .tclr1Abs abs => some (.tclr1, .abs abs)
  | .tset1Abs abs => some (.tset1, .abs abs)
  | _ => none

/-- The `k`-th byte below the one SP points at (R26). -/
def stackByte (s : State) (k : Nat) : Word := zext16 (s.sp - BitVec.ofNat 8 k)

/-- The operand of an instruction that writes one byte of memory. -/
def writtenOperand (i : Instr) : Option Operand :=
  match storeForm i, rmwForm i, i with
  | some (_, o), _, _ => some o
  | none, some (_, o), _ => some o
  | none, none, .staAtXInc => some .atX
  | none, none, .dbneDp dp _ => some (.dp dp)
  | none, none, _ => none

/-- The direct-page offset of an instruction that writes a pair (R210). -/
def writtenPair : Instr → Option Byte
  | .styaDp dp | .incwDp dp | .decwDp dp => some dp
  | _ => none

/-- How many bytes an instruction pushes (R291, R300, R308 to R311). -/
def pushCount : Instr → Nat
  | .pushA | .pushX | .pushY | .pushPsw => 1
  | .callAbs _ | .callIndDp _ | .pcall _ | .tcall _ => 2
  | .brk => 3
  | _ => 0

/-- The addresses an instruction writes, PC being past it: no operand where its address cannot be formed. The bytes of a pair
and of the stack are listed also where the instruction would be refused before it writes one (G = 1, INCW 7FH, a push with
SP = 80H): DESIGN CHOICE, since the spec does not say what a reset leaves of an instruction it refuses (R557, log entry
22). -/
def writtenBy (i : Instr) (s : State) : List Word :=
  match writtenOperand i, writtenPair i with
  | some o, _ =>
    match effectiveAddress o s with
    | .ok ea _ => [ea]
    | .fault _ => []
  | none, some d => [zext16 d, zext16 (d + 1)]
  | none, none => (List.range (pushCount i)).map (stackByte s)

end Sys2Proof.Machine
end

