-- ==== Sys2Proof/Machine/Run.lean ====
section
/-! DEFINITION. Fetching and running one instruction, and what the CPU does in its turn (spec/30_encoding.md R103,
spec/60_exceptions.md R415, R436 to R438). -/

namespace Sys2Proof.Machine

/-- `Fetch8` (R77): the byte at PC, PC advanced. -/
def fetch8 (s : State) : Res Byte := (memFetch s.pc s).bind fun v s1 => .ok v (s1.withPc (s.pc + 1))

/-- The instruction at PC: its opcode, then the operand bytes its format has (R100, R103). -/
def fetchInstruction (s : State) : Res Instr :=
  (fetch8 s).bind fun op s1 =>
    let row := buildOf op
    match row.operandBytes with
    | 0 => .ok (row.apply op 0 0) s1
    | 1 => (fetch8 s1).bind fun b1 s2 => .ok (row.apply op b1 0) s2
    | _ => (fetch8 s1).bind fun b1 s2 => (fetch8 s2).bind fun b2 s3 => .ok (row.apply op b1 b2) s3

/-- One instruction, with the peripheral events that fire between its read and its write (R103, R562); a watchdog counter
that equals WDTR after it matches (R442, log entry 44). -/
def runInstruction (mid : List Event) (s : State) : Result :=
  match fetchInstruction s with
  | .fault e => .fault e
  | .ok i s1 =>
    match exec i (s1.withMidEvents mid) with
    | .next s2 => .next (settleWatchdog (s2.withMidEvents []))
    | .fault e => .fault e
    | .refused e => .refused e

/-- The CPU's turn: the reset vector if it is still to be read; nothing while the system clock is halted; in Run mode the
acceptance test and then an interrupt or an instruction (R415); otherwise a wake-up if the mode is released (R437,
R438). -/
def cpuTurn (mid : List Event) (s : State) : Result :=
  if s.bootPending then .next (loadResetVector s)
  else if s.power.clockHalted then .next s
  else if s.mode = .run then
    match acceptable s with
    | some src => (acceptInterrupt src s).done fun _ s1 => s1
    | none => runInstruction mid s
  else if (releaseDecision s).1 then .next (wake (releaseDecision s).2)
  else .next (releaseDecision s).2

/-- The CPU is at an instruction, so that a reset that arrives now cuts that instruction short (R430, R557): it runs, its
clock is not halted, and neither the reset vector nor an interrupt comes first. -/
def atInstruction (s : State) : Bool :=
  !s.bootPending && !s.power.clockHalted && s.mode == .run && (acceptable s).isNone

/-- The addresses that the instruction at PC writes, which a reset that cuts it short leaves open (R557, log entry 22). -/
def interruptedWrites (s : State) : List Word :=
  if atInstruction s then
    match fetchInstruction s with
    | .ok i s1 => writtenBy i s1
    | .fault _ => []
  else []

/-- Of the RAM bytes a reset names, those that the interrupted instruction writes: every other byte is kept (R557). -/
def admittedTorn (s : State) (torn : Torn) : Torn :=
  torn.filter fun c => (interruptedWrites s).any fun a => a.toNat == c.1.toNat

/-- An event as it acts on a state: a reset may leave open only what the interrupted instruction writes (R557). -/
def Event.admitted (e : Event) (s : State) : Event :=
  match e with
  | .bitClock torn => .bitClock (admittedTorn s torn)
  | .watchdogMatch torn => .watchdogMatch (admittedTorn s torn)
  | .powerFail torn => .powerFail (admittedTorn s torn)
  | .resetPin torn => .resetPin (admittedTorn s torn)
  | .t0Clock | .t1Clock | .buzClock | .adcDone _ | .pins .. | .supplyRecovers | .resetPowerOn => e

/-- One move of the machine: the head of the schedule, or the CPU when the schedule is empty (log entry 20). -/
def oneStep (s : State) : Result :=
  match s.schedule with
  | [] => cpuTurn [] s
  | .cpu mid :: rest => cpuTurn mid (s.withSchedule rest)
  | .env e :: rest => .next (fireEvent (e.admitted s) (s.withSchedule rest))

/-- Whether three instruction bytes fit in the program memory at PC. -/
def fetchable (s : State) : Bool :=
  !s.bootPending && decide (s.device.romBase ≤ s.pc.toNat) && decide (s.pc.toNat ≤ 0xFFFD)

/-- Where `withFetchWord` puts an instruction: at PC, or at the bottom of the program memory where PC has no room. -/
def fetchAddress (s : State) : Word := if fetchable s then s.pc else BitVec.ofNat 16 s.device.romBase

/-- Bytes stored at rising addresses. -/
def placeBytes : List Byte → Nat → Memory → Memory
  | [], _, m => m
  | v :: rest, a, m => placeBytes rest (a + 1) (Memory.write m a v)

/-- A program of one instruction, loaded so that the next step runs it (log entry 19): the CPU is running, nothing is
scheduled before it, and no interrupt is accepted first. -/
def placeInstruction (bytes : List Byte) (s : State) : State :=
  { s with
    mem := placeBytes bytes (fetchAddress s).toNat s.mem,
    pc := fetchAddress s,
    bootPending := false, schedule := [], mode := .run,
    power := { s.power with clockHalted := false },
    psw := if (acceptable s).isSome then setFlag .i false s.psw else s.psw }

end Sys2Proof.Machine
end

