-- ==== Sys2Proof/Machine/Step.lean ====
section
/-! DEFINITION. The step of the machine and the placing of an instruction where the step fetches. -/

namespace Sys2Proof.Machine

/-- One step: a move of the CPU or of its environment. -/
def step (s : State) : Host.Outcome State Fault Refusal := oneStep s

/-- A state whose next step fetches and runs the instruction of a table word. -/
def State.withFetchWord (s : State) (nbits w : Nat) : State := placeInstruction (tableBytes nbits w) s

end Sys2Proof.Machine
end

