-- ==== Sys2Proof/Safety.lean ====
section
/-! DEFINITION. What claims speak of: which accesses the machine performs, the bytes a memory shows, the instructions
grouped by shape, what an instruction leaves alone, the invariant of the machine, and the end of a run
(spec/70_reset_and_hazards.md R575). -/

namespace Sys2Proof.Machine

/-! ## Accesses -/

/-- A data read at an address is performed (R61 to R65). -/
def readable (d : Device) (a : Word) : Bool := regionOf d a != .unimplemented

/-- A data write at an address is performed (R61 to R65). -/
def writable (d : Device) (a : Word) : Bool :=
  match regionOf d a with
  | .ram => true
  | .sfr r => r != .adcr
  | .rom | .unimplemented => false

/-- A read-modify-write at an address is performed (R64, R65). -/
def modifiable (d : Device) (a : Word) : Bool :=
  match regionOf d a with
  | .ram => true
  | .sfr r => !r.byteOnly
  | .rom | .unimplemented => false

/-- An address of the RAM. -/
def inRam (a : Word) : Prop := a.toNat < 0x80

/-- The byte of memory an address names: RAM, program memory, or none. -/
def State.byteAt (s : State) (a : Word) : Option Byte :=
  match regionOf s.device a with
  | .ram => some (s.ramByte a)
  | .rom => some (s.romByte a)
  | .sfr _ | .unimplemented => none

/-! ## What is left alone -/

/-- The registers of the CPU (R20). -/
structure Cpu where
  a   : Byte
  x   : Byte
  y   : Byte
  sp  : Byte
  psw : Byte
  pc  : Word
deriving DecidableEq, Repr

/-- The CPU registers of a state. -/
def State.cpu (s : State) : Cpu := { a := s.a, x := s.x, y := s.y, sp := s.sp, psw := s.psw, pc := s.pc }

/-- A state with other CPU registers. -/
def State.withCpu (s : State) (c : Cpu) : State :=
  { s with a := c.a, x := c.x, y := c.y, sp := c.sp, psw := c.psw, pc := c.pc }

/-- The peripherals and the run mode of a state: everything but CPU registers, memory, and the model's own fields. -/
structure Peripherals where
  ports  : Ports
  timers : Timers
  irq    : Interrupts
  clock  : ClockUnit
  buzzer : Buzzer
  adc    : Adc
  power  : PowerFail
  mode   : Mode
deriving DecidableEq, Repr

/-- The peripherals of a state. -/
def State.peripherals (s : State) : Peripherals :=
  { ports := s.ports, timers := s.timers, irq := s.irq, clock := s.clock, buzzer := s.buzzer, adc := s.adc,
    power := s.power, mode := s.mode }

/-- `t` is `s` with the CPU registers `c` and perhaps some free values used; every byte of memory is as it was. -/
def onlyCpu (c : Cpu) (s t : State) : Prop :=
  (∃ k, t = (s.withCpu c).spend k) ∧ ∀ a, t.byteAt a = s.byteAt a

/-- The memory shows the same bytes at every address outside `touched`. -/
def memoryKept (touched : Word → Prop) (s t : State) : Prop := ∀ a, ¬ touched a → t.byteAt a = s.byteAt a

/-- What no instruction changes: the device, the options, the script, and the model's counters of resets. -/
def settingKept (s t : State) : Prop :=
  t.device = s.device ∧ t.options = s.options ∧ t.schedule = s.schedule ∧ t.midEvents = s.midEvents ∧
    t.bootPending = s.bootPending ∧ t.powerCycle = s.powerCycle

/-- Every flag but the listed ones is as it was. -/
def flagsKept (except : List Flag) (old new : Byte) : Prop := ∀ f, f ∉ except → flag f new = flag f old

/-- N and Z are those of an 8-bit result and no other flag changed (`setNZ8`, R10). -/
def nzOnly (r old new : Byte) : Prop :=
  flag .n new = r.msb ∧ flag .z new = decide (r = 0) ∧ flagsKept [.n, .z] old new

/-- N, Z and C are those of a result and a carry, and no other flag changed. -/
def nzcOnly (r : Byte) (c : Bool) (old new : Byte) : Prop :=
  flag .n new = r.msb ∧ flag .z new = decide (r = 0) ∧ flag .c new = c ∧ flagsKept [.n, .z, .c] old new

/-! ## Instructions by shape -/

/-- The operations on a source operand. -/
inductive SourceOp where
  | adc | sbc | and | or | eor | lda | cmp | cmpx | cmpy | tst | bit | ldx | ldy
deriving DecidableEq, Repr

/-- The instructions that read one source operand and write registers only. -/
def sourceForm : Instr → Option (SourceOp × Source)
  | .adcImm imm => some (.adc, .imm imm)
  | .adcDp dp => some (.adc, .mem (.dp dp))
  | .adcDpX dp => some (.adc, .mem (.dpX dp))
  | .adcAbs abs => some (.adc, .mem (.abs abs))
  | .adcAbsY abs => some (.adc, .mem (.absY abs))
  | .adcIndX dp => some (.adc, .mem (.indX dp))
  | .adcIndY dp => some (.adc, .mem (.indY dp))
  | .adcAtX => some (.adc, .mem .atX)
  | .sbcImm imm => some (.sbc, .imm imm)
  | .sbcDp dp => some (.sbc, .mem (.dp dp))
  | .sbcDpX dp => some (.sbc, .mem (.dpX dp))
  | .sbcAbs abs => some (.sbc, .mem (.abs abs))
  | .sbcAbsY abs => some (.sbc, .mem (.absY abs))
  | .sbcIndX dp => some (.sbc, .mem (.indX dp))
  | .sbcIndY dp => some (.sbc, .mem (.indY dp))
  | .sbcAtX => some (.sbc, .mem .atX)
  | .cmpImm imm => some (.cmp, .imm imm)
  | .cmpDp dp => some (.cmp, .mem (.dp dp))
  | .cmpDpX dp => some (.cmp, .mem (.dpX dp))
  | .cmpAbs abs => some (.cmp, .mem (.abs abs))
  | .cmpAbsY abs => some (.cmp, .mem (.absY abs))
  | .cmpIndX dp => some (.cmp, .mem (.indX dp))
  | .cmpIndY dp => some (.cmp, .mem (.indY dp))
  | .cmpAtX => some (.cmp, .mem .atX)
  | .orImm imm => some (.or, .imm imm)
  | .orDp dp => some (.or, .mem (.dp dp))
  | .orDpX dp => some (.or, .mem (.dpX dp))
  | .orAbs abs => some (.or, .mem (.abs abs))
  | .orAbsY abs => some (.or, .mem (.absY abs))
  | .orIndX dp => some (.or, .mem (.indX dp))
  | .orIndY dp => some (.or, .mem (.indY dp))
  | .orAtX => some (.or, .mem .atX)
  | .andImm imm => some (.and, .imm imm)
  | .andDp dp => some (.and, .mem (.dp dp))
  | .andDpX dp => some (.and, .mem (.dpX dp))
  | .andAbs abs => some (.and, .mem (.abs abs))
  | .andAbsY abs => some (.and, .mem (.absY abs))
  | .andIndX dp => some (.and, .mem (.indX dp))
  | .andIndY dp => some (.and, .mem (.indY dp))
  | .andAtX => some (.and, .mem .atX)
  | .eorImm imm => some (.eor, .imm imm)
  | .eorDp dp => some (.eor, .mem (.dp dp))
  | .eorDpX dp => some (.eor, .mem (.dpX dp))
  | .eorAbs abs => some (.eor, .mem (.abs abs))
  | .eorAbsY abs => some (.eor, .mem (.absY abs))
  | .eorIndX dp => some (.eor, .mem (.indX dp))
  | .eorIndY dp => some (.eor, .mem (.indY dp))
  | .eorAtX => some (.eor, .mem .atX)
  | .ldaImm imm => some (.lda, .imm imm)
  | .ldaDp dp => some (.lda, .mem (.dp dp))
  | .ldaDpX dp => some (.lda, .mem (.dpX dp))
  | .ldaAbs abs => some (.lda, .mem (.abs abs))
  | .ldaAbsY abs => some (.lda, .mem (.absY abs))
  | .ldaIndX dp => some (.lda, .mem (.indX dp))
  | .ldaIndY dp => some (.lda, .mem (.indY dp))
  | .ldaAtX => some (.lda, .mem .atX)
  | .cmpxImm imm => some (.cmpx, .imm imm)
  | .cmpxDp dp => some (.cmpx, .mem (.dp dp))
  | .cmpxAbs abs => some (.cmpx, .mem (.abs abs))
  | .cmpyImm imm => some (.cmpy, .imm imm)
  | .cmpyDp dp => some (.cmpy, .mem (.dp dp))
  | .cmpyAbs abs => some (.cmpy, .mem (.abs abs))
  | .tstDp dp => some (.tst, .mem (.dp dp))
  | .ldxImm imm => some (.ldx, .imm imm)
  | .ldxDp dp => some (.ldx, .mem (.dp dp))
  | .ldxDpY dp => some (.ldx, .mem (.dpY dp))
  | .ldxAbs abs => some (.ldx, .mem (.abs abs))
  | .ldyImm imm => some (.ldy, .imm imm)
  | .ldyDp dp => some (.ldy, .mem (.dp dp))
  | .ldyDpX dp => some (.ldy, .mem (.dpX dp))
  | .ldyAbs abs => some (.ldy, .mem (.abs abs))
  | .bitDp dp => some (.bit, .mem (.dp dp))
  | .bitAbs abs => some (.bit, .mem (.abs abs))
  | _ => none

/-- The condition of a branch on a flag (R275 to R283); BRA has none. -/
def branchForm : Instr → Option (Option (Flag × Bool) × Byte)
  | .bcc rel => some (some (.c, false), rel)
  | .bcs rel => some (some (.c, true), rel)
  | .beq rel => some (some (.z, true), rel)
  | .bmi rel => some (some (.n, true), rel)
  | .bne rel => some (some (.z, false), rel)
  | .bpl rel => some (some (.n, false), rel)
  | .bvc rel => some (some (.v, false), rel)
  | .bvs rel => some (some (.v, true), rel)
  | .bra rel => some (none, rel)
  | _ => none

/-- The bit instructions on C, and the operand bytes of their `M.bit` (R233 to R247). -/
inductive CarryOp where
  | and1 | and1b | or1 | or1b | eor1 | eor1b | ldc | ldcb
deriving DecidableEq, Repr

/-- The instructions that combine C with a memory bit. -/
def carryForm : Instr → Option (CarryOp × Byte × Byte)
  | .and1 b1 b2 => some (.and1, b1, b2)
  | .and1b b1 b2 => some (.and1b, b1, b2)
  | .or1 b1 b2 => some (.or1, b1, b2)
  | .or1b b1 b2 => some (.or1b, b1, b2)
  | .eor1 b1 b2 => some (.eor1, b1, b2)
  | .eor1b b1 b2 => some (.eor1b, b1, b2)
  | .ldc b1 b2 => some (.ldc, b1, b2)
  | .ldcb b1 b2 => some (.ldcb, b1, b2)
  | _ => none

/-- The opcode offset of a mode of the eight-mode instructions (R140); `dp+Y` is not one of the modes. -/
def modeOffset : Source → Option Byte
  | .imm _ => some 0x04
  | .mem (.dp _) => some 0x05
  | .mem (.dpX _) => some 0x06
  | .mem (.abs _) => some 0x07
  | .mem (.absY _) => some 0x15
  | .mem (.indX _) => some 0x16
  | .mem (.indY _) => some 0x17
  | .mem .atX => some 0x14
  | .mem (.dpY _) => none

/-- The opcode base of an eight-mode instruction (R140). -/
def SourceOp.base : SourceOp → Option Byte
  | .adc => some 0x00
  | .sbc => some 0x20
  | .cmp => some 0x40
  | .or => some 0x60
  | .and => some 0x80
  | .eor => some 0xA0
  | .lda => some 0xC0
  | .cmpx | .cmpy | .tst | .bit | .ldx | .ldy => none

/-- The result of a logical operation (R145, R156, R161). -/
def SourceOp.logic : SourceOp → Byte → Byte → Option Byte
  | .and, a, m => some (a &&& m)
  | .or, a, m => some (a ||| m)
  | .eor, a, m => some (a ^^^ m)
  | _, _, _ => none

/-- The CPU registers after a load of `m` (R180, R183, R184). -/
def SourceOp.load : SourceOp → Cpu → Byte → Option Cpu
  | .lda, c, m => some { c with a := m }
  | .ldx, c, m => some { c with x := m }
  | .ldy, c, m => some { c with y := m }
  | _, _, _ => none

/-- The register a comparison compares (R147 to R149). -/
def SourceOp.compared : SourceOp → State → Option Byte
  | .cmp, s => some s.a
  | .cmpx, s => some s.x
  | .cmpy, s => some s.y
  | _, _ => none

/-- The result and the carry out of a shift or rotation of `v` with carry `c` in (R146, R159, R162, R163). -/
def RmwOp.shift : RmwOp → Byte → Bool → Option (Nat × Bool)
  | .asl, v, _ => some (2 * v.toNat % 256, decide (128 ≤ v.toNat))
  | .rol, v, c => some (2 * v.toNat % 256 + c.toNat, decide (128 ≤ v.toNat))
  | .lsr, v, _ => some (v.toNat / 2, decide (v.toNat % 2 = 1))
  | .ror, v, c => some (v.toNat / 2 + 128 * c.toNat, decide (v.toNat % 2 = 1))
  | _, _, _ => none

/-- The result of INC, DEC and COM (R150, R153, R157). -/
def RmwOp.count : RmwOp → Byte → Option Byte
  | .inc, v => some (v + 1)
  | .dec, v => some (v - 1)
  | .com, v => some (0xFF - v)
  | _, _ => none

/-- The result of TCLR1 and TSET1, of the byte and A (R253, R254). -/
def RmwOp.masked : RmwOp → Byte → Byte → Option Byte
  | .tclr1, v, a => some (v &&& ~~~a)
  | .tset1, v, a => some (v ||| a)
  | _, _, _ => none

/-- The bit a bit instruction writes and the value it gives it, from the byte and C (R236, R245, R248, R252). -/
def RmwOp.bitWritten : RmwOp → Byte → Bool → Option (BitVec 3 × Bool)
  | .set1 b, _, _ => some (b, true)
  | .clr1 b, _, _ => some (b, false)
  | .not1 b, v, _ => some (b, !v.getLsbD b.toNat)
  | .stc b, _, c => some (b, c)
  | _, _, _ => none

/-- The accumulator forms of the shifts, INC and DEC. -/
def accumulatorForm : Instr → Option RmwOp
  | .aslA => some .asl
  | .rolA => some .rol
  | .lsrA => some .lsr
  | .rorA => some .ror
  | .incA => some .inc
  | .decA => some .dec
  | _ => none

/-- The new C of a bit instruction on C (R233, R234, R241 to R244, R246, R247). -/
def CarryOp.result : CarryOp → Bool → Bool → Bool
  | .and1, c, m => c && m
  | .and1b, c, m => c && !m
  | .or1, c, m => c || m
  | .or1b, c, m => c || !m
  | .eor1, c, m => c != m
  | .eor1b, c, m => c == m
  | .ldc, _, m => m
  | .ldcb, _, m => !m

/-- The target of a call that does not read a pointer from the direct page (R284, R289, R290). -/
def callTarget : Instr → State → Option Word
  | .callAbs target, _ => some target
  | .pcall upage, _ => some (0xFF00 + upage.setWidth 16)
  | .tcall n, s => some (s.vectorAt (0xFFC0 + 2 * (15 - n.setWidth 16)))
  | _, _ => none

/-- The byte a push stores (R308 to R311). -/
def pushForm : Instr → State → Option Byte
  | .pushA, s => some s.a
  | .pushX, s => some s.x
  | .pushY, s => some s.y
  | .pushPsw, s => some s.psw
  | _, _ => none

/-- The CPU registers after a pop of `v`, SP aside (R304 to R307). -/
def popForm : Instr → Cpu → Byte → Option Cpu
  | .popA, c, v => some { c with a := v }
  | .popX, c, v => some { c with x := v }
  | .popY, c, v => some { c with y := v }
  | .popPsw, c, v => some { c with psw := v }
  | _, _, _ => none

/-- The condition of a bit-test branch or CBNE on the byte read, and its operand and displacement (R272, R274, R286). -/
def byteBranchForm : Instr → Option ((Byte → Byte → Bool) × Operand × Byte)
  | .bbcDp bit dp rel => some (fun _ m => !m.getLsbD bit.toNat, .dp dp, rel)
  | .bbsDp bit dp rel => some (fun _ m => m.getLsbD bit.toNat, .dp dp, rel)
  | .cbneDp dp rel => some (fun a m => decide (a ≠ m), .dp dp, rel)
  | .cbneDpX dp rel => some (fun a m => decide (a ≠ m), .dpX dp, rel)
  | _ => none

/-- A pair was stored at `d` and `d + 1` in page 0, low byte first, and the CPU registers became `c`; the rest is as it was,
but for peripherals where a byte of the pair is no RAM byte or events fired inside the instruction. -/
def pairStored (d : Byte) (w : Word) (c : Cpu) (s t : State) : Prop :=
  t.cpu = c ∧ t.mode = s.mode ∧ settingKept s t ∧
    memoryKept (fun a => a = zext16 d ∨ a = zext16 (d + 1)) s t ∧
    (inRam (zext16 d) → t.byteAt (zext16 d) = some (loByte w)) ∧
    (inRam (zext16 (d + 1)) → t.byteAt (zext16 (d + 1)) = some (hiByte w)) ∧
    (inRam (zext16 d) → inRam (zext16 (d + 1)) → s.midEvents = [] → t.peripherals = s.peripherals)

/-- A packed-BCD byte. -/
def bcd (v : Byte) : Prop := v.toNat % 16 < 10 ∧ v.toNat / 16 < 10

/-- The number a packed-BCD byte stands for. -/
def bcdValue (v : Byte) : Nat := v.toNat / 16 * 10 + v.toNat % 16

/-- An unoccupied address of the control-register area (R44). -/
def unoccupied (a : Word) : Prop :=
  a.toNat ∈ [0xC8, 0xC9, 0xCD, 0xCE, 0xCF, 0xD6, 0xD7, 0xD8, 0xD9, 0xDA, 0xDB, 0xDC, 0xDD, 0xDF, 0xE0, 0xE1, 0xE7, 0xE8,
    0xE9, 0xEE] ∨ (0xF0 ≤ a.toNat ∧ a.toNat < 0x100)

/-- The sources whose request flag releases a power-saving mode (R435, R437). -/
def releasesMode (m : Mode) (wdton : Bool) (src : IntSource) : Prop :=
  m ≠ .run ∧ (src = .int0 ∨ src = .int1 ∨ (m = .wakeupTimer ∧ src = .timer0) ∨
    (m = .rcWdt ∧ wdton = false ∧ src = .watchdog))

/-- Bytes pushed one after the other: each is written where SP points, and SP goes down by one (R25, R27). -/
def pushed : List Byte → State → State → Prop
  | [], s, t => t = s
  | v :: rest, s, t => ∃ s1, memWrite (zext16 s.sp) v s = .ok () s1 ∧ pushed rest (s1.withSp (s.sp - 1)) t

/-- The `n` bytes a push of `n` bytes writes may be written. -/
def pushable (n : Nat) (s : State) : Prop := ∀ k, k < n → writable s.device (stackByte s k) = true

/-- The `n` bytes a push of `n` bytes writes lie in RAM. -/
def stackInRam (n : Nat) (s : State) : Prop := ∀ k, k < n → inRam (stackByte s k)

/-- Pushing `bytes` changed SP and the stack bytes and, where those lie in RAM, nothing else. -/
def stackedOnly (bytes : List Byte) (s t : State) : Prop :=
  t.cpu = { s.cpu with sp := s.sp - BitVec.ofNat 8 bytes.length } ∧ t.mode = s.mode ∧ settingKept s t ∧
    memoryKept (fun a => ∃ k, k < bytes.length ∧ a = stackByte s k) s t ∧
    (∀ k, k < bytes.length → inRam (stackByte s k) → t.byteAt (stackByte s k) = bytes[k]?) ∧
    (stackInRam bytes.length s → t.peripherals = s.peripherals)

/-- It is the CPU's turn: the script is empty, or its head gives the CPU a move with the events `mid` inside. -/
def cpuMoves (s : State) (mid : List Event) (rest : List Turn) : Prop :=
  s.schedule = .cpu mid :: rest ∨ (s.schedule = [] ∧ mid = [] ∧ rest = [])

/-- The CPU makes the next move, and it is to run an instruction: nothing is scheduled, halted, stopped or accepted. -/
def runsInstruction (s : State) : Prop :=
  s.bootPending = false ∧ s.power.clockHalted = false ∧ s.mode = .run ∧ acceptable s = none

/-- `t` is the state after a read-modify-write of the byte at `ea` from state `s`, up to A and PSW: the byte read was `v`,
the byte written is `r`, and the peripheral events of `midEvents` fired in between (R70, R73). -/
def rewrites (ea : Word) (v r : Byte) (s t : State) : Prop :=
  ∃ k, memRead ea s = .ok v (s.spend k) ∧ memWrite ea r (betweenReadAndWrite (s.spend k)) = .ok () t

/-- A byte `r` was stored at `ea` and the CPU registers became `c`; the rest is as it was, but for peripherals where the
byte is no RAM byte or events fired inside the instruction. -/
def storedOnly (ea : Word) (r : Byte) (c : Cpu) (s t : State) : Prop :=
  t.cpu = c ∧ t.mode = s.mode ∧ settingKept s t ∧ memoryKept (· = ea) s t ∧
    (inRam ea → t.byteAt ea = some r ∧ (s.midEvents = [] → t.peripherals = s.peripherals))

/-- The opcode base of the shifts, rotations, INC and DEC (R141). -/
def RmwOp.base : RmwOp → Option Byte
  | .asl => some 0x00
  | .rol => some 0x20
  | .lsr => some 0x40
  | .ror => some 0x60
  | .inc => some 0x80
  | .dec => some 0xA0
  | _ => none

/-- The opcode offset of their memory operands (R141); that of operand `A` is 08H. -/
def rmwOffset : Operand → Option Byte
  | .dp _ => some 0x09
  | .dpX _ => some 0x19
  | .abs _ => some 0x18
  | _ => none

/-- The priority of an interrupt source, 1 the highest (R410). -/
def IntSource.priority : IntSource → Nat
  | .int0 => 1
  | .int1 => 2
  | .timer0 => 3
  | .timer1 => 4
  | .adc => 5
  | .watchdog => 6
  | .basicInterval => 7

/-! ## What each instruction may write -/

/-- The flags of the FLAG column for an operation on a source operand. -/
def SourceOp.flags : SourceOp → List Flag
  | .adc | .sbc => [.n, .v, .h, .z, .c]
  | .cmp | .cmpx | .cmpy => [.n, .z, .c]
  | .bit => [.n, .v, .z]
  | .and | .or | .eor | .lda | .tst | .ldx | .ldy => [.n, .z]

/-- The flags of the FLAG column for an operation on a byte read and written. -/
def RmwOp.flags : RmwOp → List Flag
  | .asl | .rol | .lsr | .ror => [.n, .z, .c]
  | .inc | .dec | .com | .tclr1 | .tset1 | .xma => [.n, .z]
  | .set1 _ | .clr1 _ | .not1 _ | .stc _ => []

/-- The FLAG column of the opcode tables (R144 to R314) for the instructions of no shape above. -/
def otherFlags : Instr → List Flag
  | .incX | .incY | .decX | .decY | .mul | .xcn | .ldaAtXInc | .tax | .tay | .tspx | .tya | .decwDp _ | .incwDp _
  | .ldyaDp _ => [.n, .z]
  | .txa => if flaggedTransfer = .txa then [.n, .z] else []
  | .txsp => if flaggedTransfer = .txsp then [.n, .z] else []
  | .daa | .das | .cmpwDp _ => [.n, .z, .c]
  | .div => [.n, .v, .h, .z]
  | .addwDp _ | .subwDp _ => [.n, .v, .h, .z, .c]
  | .clrc | .setc => [.c]
  | .clrg | .setg => [.g]
  | .clrv => [.v, .h]
  | .brk => [.b, .i]
  | .di | .ei => [.i]
  | .popPsw | .reti => [.n, .v, .g, .b, .h, .i, .z, .c]
  | i => if (carryForm i).isSome then [.c] else []

/-- The FLAG column of an instruction: the flags it may write. -/
def flagColumn (i : Instr) : List Flag :=
  match sourceForm i, rmwForm i, accumulatorForm i with
  | some (op, _), _, _ => op.flags
  | none, some (op, _), _ => op.flags
  | none, none, some op => op.flags
  | none, none, none => otherFlags i

/-- The instructions that may write A (R21). -/
def writesA (i : Instr) : Bool :=
  match sourceForm i, rmwForm i, i with
  | some (.adc, _), _, _ | some (.sbc, _), _, _ | some (.and, _), _, _ | some (.or, _), _, _ | some (.eor, _), _, _
  | some (.lda, _), _, _ => true
  | _, some (.xma, _), _ => true
  | _, _, .daa | _, _, .das | _, _, .div | _, _, .mul | _, _, .xcn | _, _, .ldaAtXInc | _, _, .txa | _, _, .tya
  | _, _, .xax | _, _, .xay | _, _, .addwDp _ | _, _, .subwDp _ | _, _, .ldyaDp _ | _, _, .seta1 _ | _, _, .clra1 _
  | _, _, .popA => true
  | _, _, i => (accumulatorForm i).isSome

/-- The instructions that may write X (R22). -/
def writesX (i : Instr) : Bool :=
  match sourceForm i, i with
  | some (.ldx, _), _ => true
  | _, .tax | _, .tspx | _, .popX | _, .incX | _, .decX | _, .xax | _, .xyx | _, .ldaAtXInc | _, .staAtXInc => true
  | _, _ => false

/-- The instructions that may write Y (R22). -/
def writesY (i : Instr) : Bool :=
  match sourceForm i, i with
  | some (.ldy, _), _ => true
  | _, .tay | _, .popY | _, .incY | _, .decY | _, .xay | _, .xyx | _, .dbneY _ | _, .mul | _, .div | _, .addwDp _
  | _, .subwDp _ | _, .ldyaDp _ => true
  | _, _ => false

/-- The instructions that may write SP: TXSP, pushes, pops, calls and returns (R24). -/
def writesSp : Instr → Bool
  | .txsp | .pushA | .pushX | .pushY | .pushPsw | .popA | .popX | .popY | .popPsw | .callAbs _ | .callIndDp _ | .pcall _
  | .tcall _ | .ret | .brk | .reti => true
  | _ => false

/-- The instructions that may load PC (R29). -/
def loadsPc (i : Instr) : Bool :=
  match branchForm i, byteBranchForm i, i with
  | some _, _, _ => true
  | _, some _, _ => true
  | _, _, .bbcA _ _ | _, _, .bbsA _ _ | _, _, .dbneDp _ _ | _, _, .dbneY _ | _, _, .jmpAbs _ | _, _, .jmpIndAbs _
  | _, _, .jmpIndDp _ | _, _, .callAbs _ | _, _, .callIndDp _ | _, _, .pcall _ | _, _, .tcall _ | _, _, .ret
  | _, _, .brk | _, _, .reti => true
  | _, _, _ => false

/-- The instructions that write memory: read-modify-writes, stores, pushes and the pushes of calls (R128). -/
def writesMemory (i : Instr) : Bool :=
  match rmwForm i, storeForm i, i with
  | some _, _, _ => true
  | _, some _, _ => true
  | _, _, .dbneDp _ _ | _, _, .incwDp _ | _, _, .decwDp _ | _, _, .styaDp _ | _, _, .staAtXInc | _, _, .pushA
  | _, _, .pushX | _, _, .pushY | _, _, .pushPsw | _, _, .callAbs _ | _, _, .callIndDp _ | _, _, .pcall _ | _, _, .tcall _
  | _, _, .brk => true
  | _, _, _ => false

/-! ## The invariant -/

/-- Every listed byte lies in RAM or in program memory. -/
def State.memoryMapped (s : State) : Bool :=
  s.mem.all fun c => decide (c.1 < 0x80) || decide (s.device.romBase ≤ c.1)

/-- The invariant every step keeps: the memory is in canonical form and lists only bytes that exist. -/
def State.invariant (s : State) : Prop := Memory.wf s.mem = true ∧ s.memoryMapped = true

/-! ## The end of a run -/

/-- The end of a run (R575, log entry 50): the CPU is about to fetch `BRA` to itself at the given address, and no
interrupt would be accepted first. -/
def halted (haltPc : Word) (s : State) : Prop :=
  s.mode = .run ∧ s.bootPending = false ∧ s.power.clockHalted = false ∧ s.pc = haltPc ∧ acceptable s = none ∧
    memFetch haltPc s = .ok 0x2F s ∧ memFetch (haltPc + 1) s = .ok 0xFE s

/-! ## Timers and ports, as the rules word them -/

/-- Timer 0 counted once by itself: 1 more, or at TDR0 back to 00H with T0IF set (R485). -/
def timer0Counted (s : State) : State :=
  if s.timers.t0 = s.timers.tdr0 then (s.withTimers { s.timers with t0 := 0 }).withIrq (IntSource.timer0.raise s.irq)
  else s.withTimers { s.timers with t0 := s.timers.t0 + 1 }

/-- Timer 1 counted once as an 8-bit timer: 1 more, or at TDR1 back to 00H with COMP0 toggled and T1IF set (R486). -/
def timer1Counted (s : State) : State :=
  if s.timers.t1 = s.timers.tdr1 then
    (s.withTimers { s.timers with t1 := 0, comp0 := !s.timers.comp0 }).withIrq (IntSource.timer1.raise s.irq)
  else s.withTimers { s.timers with t1 := s.timers.t1 + 1 }

/-- The pair T1:T0 counted once: 1 more, or at TDR1:TDR0 back to 0000H with COMP0 toggled and T0IF set (R487). -/
def pairCounted (s t : State) : Prop :=
  if s.timers.t1 = s.timers.tdr1 ∧ s.timers.t0 = s.timers.tdr0 then
    t = (s.withTimers { s.timers with t1 := 0, t0 := 0, comp0 := !s.timers.comp0 }).withIrq
      (IntSource.timer0.raise s.irq)
  else (t.timers.t1 ++ t.timers.t0 : Word) = (s.timers.t1 ++ s.timers.t0) + 1 ∧
    t = s.withTimers { s.timers with t1 := t.timers.t1, t0 := t.timers.t0 }

/-- A read of the port data register at `a` shows, on every pin that is a plain port pin, the latch bit where the machine
drives it, and the environment's level where it does not: an input, and an open-drain output that holds 1 (R460, R470). -/
def portShows (s : State) (a : Word) (plain : Nat → Prop) (drive : Nat → Drive) (dir latch openDrain pin : Nat → Bool) :
    Prop :=
  ∃ v k, memRead a s = .ok v (s.spend k) ∧ ∀ n, plain n →
    if dir n = true ∧ ¬ (openDrain n = true ∧ latch n = true)
    then v.getLsbD n = latch n ∧ drive n = .level (latch n)
    else v.getLsbD n = pin n ∧ ∀ b, drive n ≠ .level b

end Sys2Proof.Machine
end

