-- ==== Sys2Proof/Certificates/Slice0/Obligations.lean ====
section
/-! DEFINITION. The statements for the provers. Each formalises the rules of spec/ that OBLIGATIONS.json cites for it. A
statement that rests on a decision of the spec or on a choice of the model names the decision or the log entry. -/

section Statements

open Sys2Proof Sys2Proof.Machine

/-! ## Encoding -/

/-- For every well-formed instruction of all six families and any bytes after it, the decoder reads from its encoding
exactly that instruction, with every operand at every value, and leaves the bytes after it. For the formats whose
operand layout the manual does not give (log entries 4 and 5) this holds for every layout. -/
def Obligations.DecodeOfEncode : Prop :=
  ∀ (i : Instr) (rest : List Byte), i.wellFormed = true → decode (encode i ++ rest) = .ok (i, rest)

/-- If the decoder reads an instruction from a list of bytes, the instruction is well-formed and the bytes are its
encoding followed by the bytes left over: no bit of an encoding is ignored, and two instructions never share an
encoding. -/
def Obligations.EncodeOfDecode : Prop :=
  ∀ (bytes rest : List Byte) (i : Instr), decode bytes = .ok (i, rest) →
    i.wellFormed = true ∧ bytes = encode i ++ rest

/-- The byte strings of the encoded examples of the addressing-mode chapter decode to the instructions the manual
prints beside them, operand for operand. -/
def Obligations.ManualExamplesDecode : Prop :=
  decode [0x04, 0x35] = .ok (.adcImm 0x35, []) ∧
  decode [0x07, 0x35, 0xF0] = .ok (.adcAbs 0xF035, []) ∧
  decode [0xE4, 0x55, 0x35] = .ok (.ldm 0x35 0x55, []) ∧
  decode [0xC5, 0x35] = .ok (.ldaDp 0x35, []) ∧
  decode [0x98, 0x35, 0x00] = .ok (.incAbs 0x0035, []) ∧
  decode [0xD4] = .ok (.ldaAtX, []) ∧
  decode [0xDB] = .ok (.ldaAtXInc, []) ∧
  decode [0xC6, 0x45] = .ok (.ldaDpX 0x45, []) ∧
  decode [0xD5, 0x00, 0xFA] = .ok (.ldaAbsY 0xFA00, []) ∧
  decode [0x3F, 0x35] = .ok (.jmpIndDp 0x35, []) ∧
  decode [0x16, 0x25] = .ok (.adcIndX 0x25, []) ∧
  decode [0x17, 0x25] = .ok (.adcIndY 0x25, []) ∧
  decode [0x1F, 0x25, 0xF0] = .ok (.jmpIndAbs 0xF025, []) ∧
  decode [0x4F, 0x35] = .ok (.pcall 0x35, []) ∧
  decode [0x4A] = .ok (.tcall 4, [])

/-- Any opcode with two bytes after it decodes. Only the opcode 00H decodes to the unassigned row, and executing that
row is refused under the name unassignedOpcode in every state: the spec gives it no effect (its decision D9, log entry
48). -/
def Obligations.OnlyOpcodeZeroIsUnassigned : Prop :=
  (∀ op b1 b2 : Byte, ∃ i rest, decode [op, b1, b2] = .ok (i, rest)) ∧
  (∀ bytes rest : List Byte, decode bytes = .ok (.unassigned, rest) ↔ bytes = 0x00#8 :: rest) ∧
  (∀ s : State, exec .unassigned s = .refused .unassignedOpcode)

/-! ## The step and its invariants -/

/-- When the CPU is to run an instruction (nothing scheduled before it, Run mode, no interrupt acceptable) and the
program-memory bytes at PC decode to i, the step is exec of i with PC past those bytes, and with the peripheral events
of the CPU turn (log entry 21) inside the instruction and none left afterwards; a watchdog counter that then equals
WDTR, because the instruction wrote WDTR, matches at the end of the step (log entry 44; WatchdogAndIntervalTimer says
what a match does); a fault or refusal of exec is the step's. -/
def Obligations.StepRunsDecodedInstruction : Prop :=
  ∀ (s : State) (mid : List Event) (rest : List Turn) (bytes : List Byte) (i : Instr),
    runsInstruction s → cpuMoves s mid rest → decode bytes = .ok (i, []) →
    (∀ k, k < bytes.length → memFetch (s.pc + BitVec.ofNat 16 k) s = .ok (bytes.getD k 0) s) →
    step s =
      match exec i (((s.withSchedule rest).withPc (s.pc + BitVec.ofNat 16 bytes.length)).withMidEvents mid) with
      | .next t => .next (settleWatchdog (t.withMidEvents []))
      | .fault e => .fault e
      | .refused e => .refused e

/-- The invariant that every step keeps holds of the machine right after reset: the memory list is in canonical form
and lists only bytes of RAM or program memory (log entry 47). -/
def Obligations.ResetInvariant : Prop :=
  State.reset.invariant

/-- From every state whose memory list is in canonical form (addresses strictly rising) and lists only bytes of RAM or
of the program memory, a step that answers a next state leads to such a state, whatever moves: an instruction, an
interrupt, a reset or a peripheral event. -/
def Obligations.StepKeepsInvariant : Prop :=
  ∀ s t : State, s.invariant → step s = .next t → t.invariant

/-- Whatever a step does (an instruction, an interrupt acceptance, a reset from any cause, a peripheral event), every
byte of the program memory reads as before, and the device and its CONFIG options are the same. -/
def Obligations.StepKeepsProgram : Prop :=
  ∀ s t : State, step s = .next t →
    t.device = s.device ∧ t.options = s.options ∧
      ∀ a : Word, s.device.romBase ≤ a.toNat → t.romByte a = s.romByte a

/-- For every instruction, a flag that its FLAG column does not name is unchanged by it. In particular I changes only
by EI, DI, BRK, POP PSW and RETI, G only by SETG, CLRG, POP PSW and RETI, B only by BRK, POP PSW and RETI, and no
branch, jump, call, store or exchange of registers changes any flag. Which of TXA and TXSP has N and Z in its column
is the parameter TXA_TXSP_FLAGS (log entry 37). -/
def Obligations.FlagWriters : Prop :=
  ∀ (i : Instr) (s t : State) (f : Flag), exec i s = .next t → f ∉ flagColumn i → flag f t.psw = flag f s.psw

/-- An instruction that is not listed as a writer of A, X, Y, SP or PC leaves that register as it was; an instruction
that writes no memory leaves every byte of memory and every peripheral as it was; and only STOP changes the run mode.
No instruction changes the device, the options, the script or the counters of resets. -/
def Obligations.RegisterWriters : Prop :=
  ∀ (i : Instr) (s t : State), exec i s = .next t →
    (writesA i = false → t.a = s.a) ∧ (writesX i = false → t.x = s.x) ∧ (writesY i = false → t.y = s.y) ∧
    (writesSp i = false → t.sp = s.sp) ∧ (loadsPc i = false → t.pc = s.pc) ∧
    (writesMemory i = false → (∀ a, t.byteAt a = s.byteAt a) ∧ (t.withMode s.mode).peripherals = s.peripherals) ∧
    (i ≠ .stop → t.mode = s.mode) ∧ settingKept s t

/-! ## Memory and operands -/

/-- A RAM byte written reads back and no other byte changes. Program memory can be read; a write to it faults.
Addresses 0080H to 00BFH, 0100H to ROM_BASE - 1 and the unoccupied addresses of the control-register area fault on
reads and writes. Every other address of 00C0H to 00FFH can be read and, but for ADCR, written. The faults are the
spec's decisions D2, D3 and D29 (log entry 35). -/
def Obligations.AccessMap : Prop :=
  ∀ (a : Word) (s : State),
    (inRam a → memRead a s = .ok (s.ramByte a) s ∧
      ∀ v, ∃ t, memWrite a v s = .ok () t ∧ memRead a t = .ok v t ∧ t.cpu = s.cpu ∧ t.peripherals = s.peripherals ∧
        settingKept s t ∧ memoryKept (· = a) s t) ∧
    (s.device.romBase ≤ a.toNat → memRead a s = .ok (s.romByte a) s ∧
      ∀ v, memWrite a v s = .fault (.writeToProgramMemory a)) ∧
    ((0x80 ≤ a.toNat ∧ a.toNat < 0xC0) ∨ (0x100 ≤ a.toNat ∧ a.toNat < s.device.romBase) ∨ unoccupied a →
      memRead a s = .fault (.unimplementedAddress a) ∧ ∀ v, memWrite a v s = .fault (.unimplementedAddress a)) ∧
    (0xC0 ≤ a.toNat ∧ a.toNat < 0x100 ∧ ¬ unoccupied a → (∃ v k, memRead a s = .ok v (s.spend k)) ∧
      ∀ v, if a = 0xEB then memWrite a v s = .fault (.writeToReadOnlyRegister a) else ∃ t, memWrite a v s = .ok () t)

/-- While G = 0: dp, dp+X, dp+Y and the X-indirect form address page 0 with the sum modulo 256; !abs and !abs+Y
address the whole space modulo 65536; [dp+X] and [dp]+Y read a little-endian pointer from page 0, low byte first, Y
being added modulo 65536. A source operand is the immediate, or the byte read at the effective address. The wrap
modulo 256 is the spec's decision D20 (log entry 36). -/
def Obligations.OperandAddresses : Prop :=
  ∀ (s : State) (d : Byte) (w : Word), flag .g s.psw = false →
    effectiveAddress (.dp d) s = .ok (zext16 d) s ∧
    effectiveAddress (.dpX d) s = .ok (zext16 (d + s.x)) s ∧
    effectiveAddress (.dpY d) s = .ok (zext16 (d + s.y)) s ∧
    effectiveAddress .atX s = .ok (zext16 s.x) s ∧
    effectiveAddress (.abs w) s = .ok w s ∧
    effectiveAddress (.absY w) s = .ok (w + zext16 s.y) s ∧
    (∀ lo hi s1 s2, memRead (zext16 (d + s.x)) s = .ok lo s1 → memRead (zext16 (d + s.x + 1)) s1 = .ok hi s2 →
      effectiveAddress (.indX d) s = .ok (hi ++ lo) s2) ∧
    (∀ lo hi s1 s2, memRead (zext16 d) s = .ok lo s1 → memRead (zext16 (d + 1)) s1 = .ok hi s2 →
      effectiveAddress (.indY d) s = .ok ((hi ++ lo) + zext16 s.y) s2) ∧
    readSource (.imm d) s = .ok d s ∧
    (∀ o ea s1, effectiveAddress o s = .ok ea s1 → readSource (.mem o) s = memRead ea s1)

/-- A fetch at an address of the program memory gives its byte without any effect; a fetch anywhere else faults (the
spec's decision D4, log entry 35). With G = 1 the manual gives the direct page no meaning: every direct-page operand
form faults, the absolute forms work as before (the spec's decision D5, log entry 34). -/
def Obligations.ForbiddenFetchAndDirectPage : Prop :=
  (∀ (a : Word) (s : State),
    (s.device.romBase ≤ a.toNat → memFetch a s = .ok (s.romByte a) s) ∧
    (a.toNat < s.device.romBase → memFetch a s = .fault (.fetchOutsideProgramMemory a))) ∧
  (∀ (s : State) (d : Byte) (w : Word), flag .g s.psw = true →
    (∀ o ∈ [Operand.dp d, .dpX d, .dpY d, .atX, .indX d, .indY d],
      effectiveAddress o s = .fault .directPageWithGSet) ∧
    effectiveAddress (.abs w) s = .ok w s ∧ effectiveAddress (.absY w) s = .ok (w + zext16 s.y) s)

/-! ## Arithmetic and logic -/

/-- For every form of ADC whose operand M can be read, the instruction completes with A the sum A + M + C modulo 256,
C the carry out of bit 7, H the carry out of bit 3, V set exactly when the signed sum leaves -128..127, N and Z from
the result, and no other register, flag, byte of memory or peripheral changed. Where the operand cannot be read the
instruction ends in the fault of that read. -/
def Obligations.AddWithCarry : Prop :=
  ∀ (i : Instr) (src : Source) (s : State), sourceForm i = some (.adc, src) →
    (∀ m s1, readSource src s = .ok m s1 → ∃ psw t, exec i s = .next t ∧
      onlyCpu { s.cpu with a := s.a + m + BitVec.ofNat 8 (flag .c s.psw).toNat, psw := psw } s t ∧
      flag .n psw = (s.a + m + BitVec.ofNat 8 (flag .c s.psw).toNat).msb ∧
      flag .z psw = decide (s.a + m + BitVec.ofNat 8 (flag .c s.psw).toNat = 0) ∧
      flag .c psw = decide (255 < s.a.toNat + m.toNat + (flag .c s.psw).toNat) ∧
      flag .h psw = decide (15 < s.a.toNat % 16 + m.toNat % 16 + (flag .c s.psw).toNat) ∧
      flag .v psw = decide (s.a.toInt + m.toInt + ((flag .c s.psw).toNat : Int) < -128 ∨
        127 < s.a.toInt + m.toInt + ((flag .c s.psw).toNat : Int)) ∧
      flagsKept [.n, .v, .h, .z, .c] s.psw psw) ∧
    (∀ e, readSource src s = .fault e → exec i s = .fault e)

/-- For every form of SBC whose operand M can be read, the instruction completes with A = A - M - (1 - C) modulo 256,
C = 1 exactly when there is no borrow (the polarity is the spec's decision D12), H = 1 exactly when there is no borrow
from bit 4, V set exactly when the signed difference leaves -128..127, N and Z from the result, and nothing else
changed. Where the operand cannot be read it ends in the fault of that read. -/
def Obligations.SubtractWithCarry : Prop :=
  ∀ (i : Instr) (src : Source) (s : State), sourceForm i = some (.sbc, src) →
    (∀ m s1, readSource src s = .ok m s1 → ∃ psw t, exec i s = .next t ∧
      onlyCpu { s.cpu with a := s.a - m - BitVec.ofNat 8 (!flag .c s.psw).toNat, psw := psw } s t ∧
      flag .n psw = (s.a - m - BitVec.ofNat 8 (!flag .c s.psw).toNat).msb ∧
      flag .z psw = decide (s.a - m - BitVec.ofNat 8 (!flag .c s.psw).toNat = 0) ∧
      flag .c psw = decide (m.toNat + (!flag .c s.psw).toNat ≤ s.a.toNat) ∧
      flag .h psw = decide (m.toNat % 16 + (!flag .c s.psw).toNat ≤ s.a.toNat % 16) ∧
      flag .v psw = decide (s.a.toInt - m.toInt - ((!flag .c s.psw).toNat : Int) < -128 ∨
        127 < s.a.toInt - m.toInt - ((!flag .c s.psw).toNat : Int)) ∧
      flagsKept [.n, .v, .h, .z, .c] s.psw psw) ∧
    (∀ e, readSource src s = .fault e → exec i s = .fault e)

/-- Every form of AND, OR and EOR has the opcode base + offset of its operation and mode. Where its operand M can be
read it completes with A the conjunction, disjunction or exclusive disjunction of A and M, N and Z from the result,
and every other register, flag, byte of memory and peripheral as before; where M cannot be read it ends in the fault
of that read. -/
def Obligations.LogicalOperations : Prop :=
  ∀ (i : Instr) (op : SourceOp) (src : Source) (s : State), sourceForm i = some (op, src) →
    op = .and ∨ op = .or ∨ op = .eor →
    (∃ base offset, op.base = some base ∧ modeOffset src = some offset ∧ (encode i).head? = some (base + offset)) ∧
    (∀ m s1, readSource src s = .ok m s1 → ∃ r psw t, op.logic s.a m = some r ∧ exec i s = .next t ∧
      onlyCpu { s.cpu with a := r, psw := psw } s t ∧ nzOnly r s.psw psw) ∧
    (∀ e, readSource src s = .fault e → exec i s = .fault e)

/-- Every form of LDA, LDX and LDY whose operand can be read completes with the operand in A, X or Y, N and Z from it,
and nothing else changed; where the operand cannot be read it ends in the fault of that read. -/
def Obligations.Loads : Prop :=
  ∀ (i : Instr) (op : SourceOp) (src : Source) (s : State), sourceForm i = some (op, src) →
    op = .lda ∨ op = .ldx ∨ op = .ldy →
    (∀ m s1, readSource src s = .ok m s1 → ∃ c psw t, op.load s.cpu m = some c ∧ exec i s = .next t ∧
      onlyCpu { c with psw := psw } s t ∧ nzOnly m s.psw psw) ∧
    (∀ e, readSource src s = .fault e → exec i s = .fault e)

/-- Every form of CMP, CMPX and CMPY whose operand M can be read completes with Z = 1 exactly when the register equals
M, C = 1 exactly when it is at least M unsigned (the polarity is the spec's decision D12), N bit 7 of the difference,
and nothing else changed; where M cannot be read it ends in the fault of that read. -/
def Obligations.Comparisons : Prop :=
  ∀ (i : Instr) (op : SourceOp) (src : Source) (s : State) (r : Byte), sourceForm i = some (op, src) →
    op.compared s = some r →
    (∀ m s1, readSource src s = .ok m s1 → ∃ psw t, exec i s = .next t ∧ onlyCpu { s.cpu with psw := psw } s t ∧
      flag .n psw = (r - m).msb ∧ flag .z psw = decide (r = m) ∧ flag .c psw = decide (m.toNat ≤ r.toNat) ∧
      flagsKept [.n, .z, .c] s.psw psw) ∧
    (∀ e, readSource src s = .fault e → exec i s = .fault e)

/-- TST completes with N and Z from the byte. BIT completes with N = bit 7 and V = bit 6 of the byte and Z = 1 exactly
when A and the byte have no common bit (Z by the spec's decision D19). Nothing else changes. Where the byte cannot be
read they end in the fault of that read. -/
def Obligations.MemoryTests : Prop :=
  ∀ (i : Instr) (op : SourceOp) (src : Source) (s : State), sourceForm i = some (op, src) →
    op = .tst ∨ op = .bit →
    (∀ m s1, readSource src s = .ok m s1 → ∃ psw t, exec i s = .next t ∧ onlyCpu { s.cpu with psw := psw } s t ∧
      (op = .tst → nzOnly m s.psw psw) ∧
      (op = .bit → flag .n psw = m.getLsbD 7 ∧ flag .v psw = m.getLsbD 6 ∧ flag .z psw = decide (s.a &&& m = 0) ∧
        flagsKept [.n, .v, .z] s.psw psw)) ∧
    (∀ e, readSource src s = .fault e → exec i s = .fault e)

/-- Every form of ASL, LSR, ROL and ROR has the opcode base + offset. On A the instruction completes with the shifted
byte in A, the bit shifted out in C, N and Z from the result and nothing else changed. On a memory byte that may be
modified it completes: the byte is read once and the result is written to the same address, the flags are those of the
result, and no other byte of memory or CPU register changes. Where the address cannot be formed or the byte cannot be
modified it faults. -/
def Obligations.ShiftsAndRotations : Prop :=
  (∀ (i : Instr) (op : RmwOp) (s : State) (r : Nat) (c : Bool), accumulatorForm i = some op →
    op.shift s.a (flag .c s.psw) = some (r, c) →
    (∃ base, op.base = some base ∧ encode i = [base + 0x08]) ∧
    ∃ psw, exec i s = .next { s with a := BitVec.ofNat 8 r, psw := psw } ∧
      nzcOnly (BitVec.ofNat 8 r) c s.psw psw) ∧
  (∀ (i : Instr) (op : RmwOp) (o : Operand) (s : State), rmwForm i = some (op, o) →
    op = .asl ∨ op = .lsr ∨ op = .rol ∨ op = .ror →
    (∃ base offset, op.base = some base ∧ rmwOffset o = some offset ∧ (encode i).head? = some (base + offset)) ∧
    (∀ ea s1, effectiveAddress o s = .ok ea s1 → modifiable s.device ea = true →
      ∃ v r c psw s2, op.shift v (flag .c s.psw) = some (r, c) ∧ rewrites ea v (BitVec.ofNat 8 r) s1 s2 ∧
        exec i s = .next (s2.withPsw psw) ∧ nzcOnly (BitVec.ofNat 8 r) c s.psw psw ∧
        storedOnly ea (BitVec.ofNat 8 r) { s.cpu with psw := psw } s (s2.withPsw psw)) ∧
    (∀ ea s1, effectiveAddress o s = .ok ea s1 → modifiable s.device ea = false → ∃ e, exec i s = .fault e) ∧
    (∀ e, effectiveAddress o s = .fault e → exec i s = .fault e))

/-- INC and DEC on A complete with the counted byte in A. INC, DEC and COM on a memory byte that may be modified
complete: the byte is read once and the result written to the same address. N and Z come from the result; no other
flag, register or byte of memory changes. Where the address cannot be formed or the byte cannot be modified they
fault. -/
def Obligations.IncrementDecrementComplement : Prop :=
  (∀ (i : Instr) (op : RmwOp) (s : State) (r : Byte), accumulatorForm i = some op → op.count s.a = some r →
    ∃ psw, exec i s = .next { s with a := r, psw := psw } ∧ nzOnly r s.psw psw) ∧
  (∀ (i : Instr) (op : RmwOp) (o : Operand) (s : State), rmwForm i = some (op, o) →
    op = .inc ∨ op = .dec ∨ op = .com →
    (∀ ea s1, effectiveAddress o s = .ok ea s1 → modifiable s.device ea = true →
      ∃ v r psw s2, op.count v = some r ∧ rewrites ea v r s1 s2 ∧ exec i s = .next (s2.withPsw psw) ∧
        nzOnly r s.psw psw ∧ storedOnly ea r { s.cpu with psw := psw } s (s2.withPsw psw)) ∧
    (∀ ea s1, effectiveAddress o s = .ok ea s1 → modifiable s.device ea = false → ∃ e, exec i s = .fault e) ∧
    (∀ e, effectiveAddress o s = .fault e → exec i s = .fault e))

/-- INC X, INC Y, DEC X, DEC Y, XCN, TAX, TAY, TSPX and TYA complete with the result in their destination register and
N and Z from it; XAX, XAY and XYX complete without touching any flag. TXA and TXSP complete with X in A and in SP; the
one that TXA_TXSP_FLAGS names (TXA where no value is supplied: decision D18, log entry 37) writes N and Z from X and
the other no flag. No other register, byte of memory or peripheral changes. -/
def Obligations.RegisterOperations : Prop :=
  ∀ s : State,
    (∃ p, exec .incX s = .next { s with x := s.x + 1, psw := p } ∧ nzOnly (s.x + 1) s.psw p) ∧
    (∃ p, exec .incY s = .next { s with y := s.y + 1, psw := p } ∧ nzOnly (s.y + 1) s.psw p) ∧
    (∃ p, exec .decX s = .next { s with x := s.x - 1, psw := p } ∧ nzOnly (s.x - 1) s.psw p) ∧
    (∃ p, exec .decY s = .next { s with y := s.y - 1, psw := p } ∧ nzOnly (s.y - 1) s.psw p) ∧
    (∃ r p, exec .xcn s = .next { s with a := r, psw := p } ∧ r.toNat = s.a.toNat % 16 * 16 + s.a.toNat / 16 ∧
      nzOnly r s.psw p) ∧
    (∃ p, exec .tax s = .next { s with x := s.a, psw := p } ∧ nzOnly s.a s.psw p) ∧
    (∃ p, exec .tay s = .next { s with y := s.a, psw := p } ∧ nzOnly s.a s.psw p) ∧
    (∃ p, exec .tspx s = .next { s with x := s.sp, psw := p } ∧ nzOnly s.sp s.psw p) ∧
    (∃ p, exec .txa s = .next { s with a := s.x, psw := p } ∧
      if Config.txaTxspFlags.getD .txa = .txa then nzOnly s.x s.psw p else p = s.psw) ∧
    (∃ p, exec .tya s = .next { s with a := s.y, psw := p } ∧ nzOnly s.y s.psw p) ∧
    (∃ p, exec .txsp s = .next { s with sp := s.x, psw := p } ∧
      if Config.txaTxspFlags.getD .txa = .txsp then nzOnly s.x s.psw p else p = s.psw) ∧
    exec .xax s = .next { s with a := s.x, x := s.a } ∧
    exec .xay s = .next { s with a := s.y, y := s.a } ∧
    exec .xyx s = .next { s with x := s.y, y := s.x }

/-- DAA and DAS always complete with the A and C that the parameters DAA_FN and DAS_FN give (the spec's default where
none is supplied: decision D16, log entry 29, from general knowledge and not a rule of the manual), N and Z from the
new A, and nothing else changed. Of the defaults: after ADC of two packed-BCD bytes with carry, that of DAA_FN gives
the two decimal digits of the sum and its hundreds; after SBC of two packed-BCD bytes with borrow, that of DAS_FN
gives the two decimal digits of the difference modulo 100 and C = 1 exactly when there is no borrow. -/
def Obligations.DecimalAdjust : Prop :=
  (∀ s : State,
    let d := (Config.daaFn.getD daaAdjust) s.a (flag .c s.psw) (flag .h s.psw)
    ∃ p, exec .daa s = .next { s with a := d.1, psw := p } ∧ nzcOnly d.1 d.2 s.psw p) ∧
  (∀ s : State,
    let d := (Config.dasFn.getD dasAdjust) s.a (flag .c s.psw) (flag .h s.psw)
    ∃ p, exec .das s = .next { s with a := d.1, psw := p } ∧ nzcOnly d.1 d.2 s.psw p) ∧
  (∀ (s t : State) (m : Byte), bcd s.a → bcd m → exec (.adcImm m) s = .next t →
    let d := daaAdjust t.a (flag .c t.psw) (flag .h t.psw)
    bcd d.1 ∧ bcdValue d.1 + 100 * d.2.toNat = bcdValue s.a + bcdValue m + (flag .c s.psw).toNat) ∧
  (∀ (s t : State) (m : Byte), bcd s.a → bcd m → exec (.sbcImm m) s = .next t →
    let d := dasAdjust t.a (flag .c t.psw) (flag .h t.psw)
    bcd d.1 ∧ bcdValue d.1 + bcdValue m + (!flag .c s.psw).toNat = bcdValue s.a + 100 * (!d.2).toNat)

/-- MUL completes with the 16-bit product of Y and A in YA, N its bit 15, and nothing else changed but Z. Z = 1 for a
product of 0 and Z = 0 for one above 00FFH; between, it follows the parameter MUL_Z_WIDTH, and with no value supplied
it is not constrained (log entry 7). That the operands are unsigned is the spec's decision D14 (log entry 32). -/
def Obligations.Multiply : Prop :=
  ∀ s : State, ∃ psw t, exec .mul s = .next t ∧
    onlyCpu { s.cpu with
      a := BitVec.ofNat 8 (s.y.toNat * s.a.toNat % 256), y := BitVec.ofNat 8 (s.y.toNat * s.a.toNat / 256),
      psw := psw } s t ∧
    flag .n psw = decide (32768 ≤ s.y.toNat * s.a.toNat) ∧ flagsKept [.n, .z] s.psw psw ∧
    (s.y.toNat * s.a.toNat = 0 → flag .z psw = true) ∧ (256 ≤ s.y.toNat * s.a.toNat → flag .z psw = false) ∧
    (0 < s.y.toNat * s.a.toNat ∧ s.y.toNat * s.a.toNat < 256 →
      (Config.mulZWidth = some .product → flag .z psw = false) ∧
      (Config.mulZWidth = some .highByte → flag .z psw = true))

/-- With X not 0 and Y below X, DIV completes with the quotient of YA by X in A and the remainder in Y, V = 0, N and Z
from the quotient and H free. Otherwise it completes with V = 1, and with A, Y, N, H and Z as the parameter DIV_FN
answers for YA and X; where none is supplied, A, Y, N, Z and H are free values, about which nothing is claimed. X, SP,
PC, C, G, B, I, memory and peripherals never change. The reading of the flags and the second case are the spec's
decision D13 (log entry 6). -/
def Obligations.Divide : Prop :=
  ∀ s : State,
    (s.x ≠ 0 → s.y.toNat < s.x.toNat → ∃ psw t, exec .div s = .next t ∧
      onlyCpu { s.cpu with
        a := BitVec.ofNat 8 ((s.y.toNat * 256 + s.a.toNat) / s.x.toNat),
        y := BitVec.ofNat 8 ((s.y.toNat * 256 + s.a.toNat) % s.x.toNat), psw := psw } s t ∧
      (s.y.toNat * 256 + s.a.toNat) / s.x.toNat < 256 ∧ flag .v psw = false ∧
      flag .n psw = decide (128 ≤ (s.y.toNat * 256 + s.a.toNat) / s.x.toNat) ∧
      flag .z psw = decide ((s.y.toNat * 256 + s.a.toNat) / s.x.toNat = 0) ∧
      flagsKept [.n, .v, .h, .z] s.psw psw) ∧
    (s.x = 0 ∨ s.x.toNat ≤ s.y.toNat → ∃ a y psw t, exec .div s = .next t ∧
      onlyCpu { s.cpu with a := a, y := y, psw := psw } s t ∧ flagsKept [.n, .v, .h, .z] s.psw psw ∧
      flag .v psw = true ∧
      ∀ f, Config.divFn = some f →
        (f (s.y ++ s.a) s.x) = ⟨a, y, flag .n psw, flag .h psw, flag .z psw⟩)

/-! ## Registers and memory -/

/-- Every form of STA, STX, STY and LDM whose address ea can be formed and written completes: the value is written at
ea in one write, without a read of ea (the pointer bytes of the indirect forms aside), no flag and no CPU register
changes, and no byte of memory but the one at ea. Where ea cannot be formed or written it faults. That ea is written
once and not read is the spec's decision D22, and no sentence of the manual (log entry 36). -/
def Obligations.Stores : Prop :=
  ∀ (i : Instr) (v : StoreValue) (o : Operand) (s : State), storeForm i = some (v, o) →
    (∀ ea s1, effectiveAddress o s = .ok ea s1 → writable s.device ea = true →
      ∃ t, exec i s = .next t ∧ memWrite ea (v.of s) s1 = .ok () t ∧ storedOnly ea (v.of s) s.cpu s t) ∧
    (∀ ea s1, effectiveAddress o s = .ok ea s1 → writable s.device ea = false → ∃ e, exec i s = .fault e) ∧
    (∀ e, effectiveAddress o s = .fault e → exec i s = .fault e)

/-- While G = 0, the auto-increment load completes where the byte at X can be read, with that byte in A, X + 1 modulo
256 in X and N and Z from the byte; the auto-increment store completes where the byte at X can be written, writing A
there and adding 1 to X without touching a flag. Nothing else changes. Otherwise they fault. -/
def Obligations.AutoIncrement : Prop :=
  ∀ s : State, flag .g s.psw = false →
    (∀ m s1, memRead (zext16 s.x) s = .ok m s1 → ∃ psw t, exec .ldaAtXInc s = .next t ∧
      onlyCpu { s.cpu with a := m, x := s.x + 1, psw := psw } s t ∧ nzOnly m s.psw psw) ∧
    (readable s.device (zext16 s.x) = false → ∃ e, exec .ldaAtXInc s = .fault e) ∧
    (writable s.device (zext16 s.x) = true → ∃ s1 t, exec .staAtXInc s = .next t ∧
      memWrite (zext16 s.x) s.a s = .ok () s1 ∧ t = { s1 with x := s.x + 1 } ∧
      storedOnly (zext16 s.x) s.a { s.cpu with x := s.x + 1 } s t) ∧
    (writable s.device (zext16 s.x) = false → ∃ e, exec .staAtXInc s = .fault e)

/-- Every form of XMA whose byte may be modified completes: the byte is read once, A is written there, the byte read
goes to A, N and Z come from it (the spec's decision D19), and nothing else changes. Where the address cannot be
formed or the byte cannot be modified it faults. -/
def Obligations.ExchangeWithMemory : Prop :=
  ∀ (i : Instr) (o : Operand) (s : State), rmwForm i = some (.xma, o) →
    (∀ ea s1, effectiveAddress o s = .ok ea s1 → modifiable s.device ea = true →
      ∃ v psw s2, rewrites ea v s.a s1 s2 ∧ exec i s = .next { s2 with a := v, psw := psw } ∧ nzOnly v s.psw psw ∧
        storedOnly ea s.a { s.cpu with a := v, psw := psw } s { s2 with a := v, psw := psw }) ∧
    (∀ ea s1, effectiveAddress o s = .ok ea s1 → modifiable s.device ea = false → ∃ e, exec i s = .fault e) ∧
    (∀ e, effectiveAddress o s = .fault e → exec i s = .fault e)

/-! ## 16-bit instructions -/

/-- Where the pair W at dp and dp + 1 can be read, ADDW and SUBW complete with YA + W and YA - W modulo 65536 in YA,
whatever C holds; C is the carry out, or 1 for no borrow; V is signed overflow on 16 bits; N and Z come from the
16-bit result; nothing else changes. H is the half carry where the two readings of WORD_H_RULE agree or one is chosen,
and is not constrained otherwise (log entry 8). The widths of the flags are the spec's decision D15 (log entry 38).
Where W cannot be read they end in the fault of that read. -/
def Obligations.WordArithmetic : Prop :=
  ∀ (d : Byte) (s : State),
    (∀ w s1, readPair d s = .ok w s1 →
      (∃ psw t, exec (.addwDp d) s = .next t ∧
        onlyCpu { s.cpu with a := loByte (s.ya + w), y := hiByte (s.ya + w), psw := psw } s t ∧
        flag .n psw = (s.ya + w).msb ∧ flag .z psw = decide (s.ya + w = 0) ∧
        flag .c psw = decide (65535 < s.ya.toNat + w.toNat) ∧
        flag .v psw = decide (s.ya.toInt + w.toInt < -32768 ∨ 32767 < s.ya.toInt + w.toInt) ∧
        (Config.wordHRule = some .bit11 ∨ halfAdd .bit11 s.ya w = halfAdd .bit3 s.ya w →
          flag .h psw = decide (4095 < s.ya.toNat % 4096 + w.toNat % 4096)) ∧
        (Config.wordHRule = some .bit3 → flag .h psw = decide (15 < s.ya.toNat % 16 + w.toNat % 16)) ∧
        flagsKept [.n, .v, .h, .z, .c] s.psw psw) ∧
      (∃ psw t, exec (.subwDp d) s = .next t ∧
        onlyCpu { s.cpu with a := loByte (s.ya - w), y := hiByte (s.ya - w), psw := psw } s t ∧
        flag .n psw = (s.ya - w).msb ∧ flag .z psw = decide (s.ya = w) ∧
        flag .c psw = decide (w.toNat ≤ s.ya.toNat) ∧
        flag .v psw = decide (s.ya.toInt - w.toInt < -32768 ∨ 32767 < s.ya.toInt - w.toInt) ∧
        (Config.wordHRule = some .bit11 ∨ halfSub .bit11 s.ya w = halfSub .bit3 s.ya w →
          flag .h psw = decide (w.toNat % 4096 ≤ s.ya.toNat % 4096)) ∧
        (Config.wordHRule = some .bit3 → flag .h psw = decide (w.toNat % 16 ≤ s.ya.toNat % 16)) ∧
        flagsKept [.n, .v, .h, .z, .c] s.psw psw)) ∧
    (∀ e, readPair d s = .fault e → exec (.addwDp d) s = .fault e ∧ exec (.subwDp d) s = .fault e)

/-- Where the pair W at dp and dp + 1 (modulo 256) can be read, CMPW completes changing N, Z and C only (from YA - W)
and LDYA completes with W in YA and N and Z from its 16 bits (decision D15, log entry 38). Where G = 0 and both bytes
can be written, STYA completes, writing A at dp and then Y at dp + 1, with no flag, register or other byte of memory
changed. Otherwise they fault. The wrap of dp + 1 is the spec's decision D20 and the order of the two bytes its
decision D22 (log entry 36); that C of CMPW is 1 for no borrow is its decision D12. -/
def Obligations.WordCompareLoadStore : Prop :=
  ∀ (d : Byte) (s : State),
    (∀ w s1, readPair d s = .ok w s1 →
      (∃ psw t, exec (.cmpwDp d) s = .next t ∧ onlyCpu { s.cpu with psw := psw } s t ∧
        flag .n psw = (s.ya - w).msb ∧ flag .z psw = decide (s.ya = w) ∧
        flag .c psw = decide (w.toNat ≤ s.ya.toNat) ∧ flagsKept [.n, .z, .c] s.psw psw) ∧
      (∃ psw t, exec (.ldyaDp d) s = .next t ∧
        onlyCpu { s.cpu with a := loByte w, y := hiByte w, psw := psw } s t ∧
        flag .n psw = w.msb ∧ flag .z psw = decide (w = 0) ∧ flagsKept [.n, .z] s.psw psw)) ∧
    (∀ e, readPair d s = .fault e → exec (.cmpwDp d) s = .fault e ∧ exec (.ldyaDp d) s = .fault e) ∧
    (flag .g s.psw = false → writable s.device (zext16 d) = true → writable s.device (zext16 (d + 1)) = true →
      ∃ s1 t, memWrite (zext16 d) s.a s = .ok () s1 ∧ memWrite (zext16 (d + 1)) s.y s1 = .ok () t ∧
        exec (.styaDp d) s = .next t ∧ pairStored d (s.y ++ s.a) s.cpu s t) ∧
    (flag .g s.psw = true ∨ writable s.device (zext16 d) = false ∨ writable s.device (zext16 (d + 1)) = false →
      ∃ e, exec (.styaDp d) s = .fault e)

/-- Where G = 0 and both bytes of the pair may be modified, INCW and DECW complete: both bytes are read before either
is written, the pair counted modulo 65536 is written low byte first, N and Z come from the 16-bit result (decision
D15, log entry 38), and no other flag, register or byte of memory changes. Otherwise they fault. That both bytes are
read before either is written, and the low byte is written first, is the spec's decision D22, and the wrap of dp + 1
its decision D20 (log entry 36). -/
def Obligations.WordCounts : Prop :=
  ∀ (i : Instr) (d : Byte) (step : Word) (s : State), (i = .incwDp d ∧ step = 1) ∨ (i = .decwDp d ∧ step = 0xFFFF) →
    (flag .g s.psw = false → modifiable s.device (zext16 d) = true → modifiable s.device (zext16 (d + 1)) = true →
      ∃ w s1 s2 psw, readPair d s = .ok w s1 ∧ writePair d (w + step) (betweenReadAndWrite s1) = .ok () s2 ∧
        exec i s = .next (s2.withPsw psw) ∧ flag .n psw = (w + step).msb ∧ flag .z psw = decide (w + step = 0) ∧
        flagsKept [.n, .z] s.psw psw ∧
        pairStored d (w + step) { s.cpu with psw := psw } s (s2.withPsw psw)) ∧
    (flag .g s.psw = true ∨ modifiable s.device (zext16 d) = false ∨ modifiable s.device (zext16 (d + 1)) = false →
      ∃ e, exec i s = .fault e)

/-! ## Bit instructions -/

/-- Where the byte may be modified, SET1, CLR1, NOT1 and STC complete: the byte is read once and written back with the
addressed bit set, cleared, complemented or equal to C and the other seven bits as read; no flag, register or other
byte of memory changes. Where the address cannot be formed or the byte cannot be modified they fault. For NOT1 and STC
the address and the bit are those the layout MBIT_DECODE gives, for every layout (log entry 4). -/
def Obligations.BitsOfMemory : Prop :=
  ∀ (i : Instr) (op : RmwOp) (o : Operand) (s : State), rmwForm i = some (op, o) →
    (op.bitWritten 0 false).isSome = true →
    (∀ ea s1, effectiveAddress o s = .ok ea s1 → modifiable s.device ea = true →
      ∃ v r b x t, op.bitWritten v (flag .c s.psw) = some (b, x) ∧ rewrites ea v r s1 t ∧ exec i s = .next t ∧
        (∀ j, j < 8 → r.getLsbD j = if j = b.toNat then x else v.getLsbD j) ∧ storedOnly ea r s.cpu s t) ∧
    (∀ ea s1, effectiveAddress o s = .ok ea s1 → modifiable s.device ea = false → ∃ e, exec i s = .fault e) ∧
    (∀ e, effectiveAddress o s = .fault e → exec i s = .fault e)

/-- Where the byte at !abs may be modified, TSET1 and TCLR1 complete: the byte is read once and written back with the
bits of A set or cleared, N and Z come from A minus the byte read (the spec's decision D19), and no other flag,
register or byte of memory changes. Where the byte cannot be modified they fault. -/
def Obligations.TestAndModifyBits : Prop :=
  ∀ (i : Instr) (op : RmwOp) (a : Word) (s : State), rmwForm i = some (op, .abs a) → op = .tclr1 ∨ op = .tset1 →
    (modifiable s.device a = true →
      ∃ v r psw s2, op.masked v s.a = some r ∧ rewrites a v r s s2 ∧ exec i s = .next (s2.withPsw psw) ∧
        nzOnly (s.a - v) s.psw psw ∧ storedOnly a r { s.cpu with psw := psw } s (s2.withPsw psw)) ∧
    (modifiable s.device a = false → ∃ e, exec i s = .fault e)

/-- AND1, AND1B, OR1, OR1B, EOR1, EOR1B, LDC and LDCB read the byte that the layout MBIT_DECODE selects (for every
layout, log entry 4); where it can be read they complete with C the stated function of C and the selected bit, and no
other flag, register or byte of memory changed; where it cannot they end in the fault of that read. -/
def Obligations.CarryBitOperations : Prop :=
  ∀ (i : Instr) (op : CarryOp) (b1 b2 : Byte) (s : State), carryForm i = some (op, b1, b2) →
    (∀ v s1, memRead (Config.mbitDecode b1 b2).addr s = .ok v s1 →
      ∃ psw t, exec i s = .next t ∧ onlyCpu { s.cpu with psw := psw } s t ∧
        flag .c psw = op.result (flag .c s.psw) (v.getLsbD (Config.mbitDecode b1 b2).bit.toNat) ∧
        flagsKept [.c] s.psw psw) ∧
    (∀ e, memRead (Config.mbitDecode b1 b2).addr s = .fault e → exec i s = .fault e)

/-- CLRC, SETC, CLRG, SETG, EI and DI complete with their flag at 0 or 1, CLRV with V and H at 0, and no other flag,
register, byte of memory or peripheral changed; NOP completes and changes nothing beyond the advance of PC that the
step made. SETA1 and CLRA1 complete with the bit of A that the layout ABIT_DECODE selects (for every layout, log entry
5) set or cleared, the other bits of A as they were, and no flag or anything else changed. -/
def Obligations.FlagAndAccumulatorBits : Prop :=
  (∀ i f value, (i, f, value) ∈ [(Instr.clrc, Flag.c, false), (.setc, .c, true), (.clrg, .g, false), (.setg, .g, true),
      (.ei, .i, true), (.di, .i, false)] →
    ∀ s : State, ∃ psw, exec i s = .next (s.withPsw psw) ∧ flag f psw = value ∧ flagsKept [f] s.psw psw) ∧
  (∀ s : State, ∃ psw, exec .clrv s = .next (s.withPsw psw) ∧ flag .v psw = false ∧ flag .h psw = false ∧
    flagsKept [.v, .h] s.psw psw) ∧
  (∀ s : State, exec .nop s = .next s) ∧
  (∀ (i : Instr) (b : Byte) (x : Bool) (s : State), (i = .seta1 b ∧ x = true) ∨ (i = .clra1 b ∧ x = false) →
    ∃ r, exec i s = .next { s with a := r } ∧
      ∀ j, j < 8 → r.getLsbD j = if j = (Config.abitDecode b).toNat then x else s.a.getLsbD j)

/-! ## Branches, jumps and calls -/

/-- Each branch completes in every state: where its flag has the value the mnemonic names (always for BRA), PC becomes
PC plus the sign-extended displacement modulo 65536, otherwise PC stays past the instruction; nothing else changes.
That the displacement is signed and counted from the next instruction is the spec's decision D7 (PRESUMED, log entry
30). -/
def Obligations.FlagBranches : Prop :=
  ∀ (i : Instr) (cond : Option (Flag × Bool)) (rel : Byte) (s : State), branchForm i = some (cond, rel) →
    exec i s = .next (s.withPc
      (if cond.all (fun p => flag p.1 s.psw == p.2) then BitVec.ofInt 16 ((s.pc.toNat : Int) + rel.toInt) else s.pc))

/-- BBS and BBC on A complete in every state. BBS and BBC on a direct-page bit and CBNE complete where the byte can be
read, and end in the fault of that read elsewhere. Where the condition holds PC becomes PC plus the signed
displacement (decision D7, log entry 30), else it stays; nothing else changes, flags included. A byte of a write-only
register reads as a free value (log entry 24). -/
def Obligations.BitAndCompareBranches : Prop :=
  (∀ (bit : BitVec 3) (rel : Byte) (s : State),
    exec (.bbsA bit rel) s = .next (s.withPc
      (if s.a.getLsbD bit.toNat then BitVec.ofInt 16 ((s.pc.toNat : Int) + rel.toInt) else s.pc)) ∧
    exec (.bbcA bit rel) s = .next (s.withPc
      (if s.a.getLsbD bit.toNat then s.pc else BitVec.ofInt 16 ((s.pc.toNat : Int) + rel.toInt)))) ∧
  (∀ (i : Instr) (cond : Byte → Byte → Bool) (o : Operand) (rel : Byte) (s : State),
    byteBranchForm i = some (cond, o, rel) →
    (∀ m s1, readSource (.mem o) s = .ok m s1 → ∃ t, exec i s = .next t ∧
      onlyCpu { s.cpu with
        pc := if cond s.a m then BitVec.ofInt 16 ((s.pc.toNat : Int) + rel.toInt) else s.pc } s t) ∧
    (∀ e, readSource (.mem o) s = .fault e → exec i s = .fault e))

/-- DBNE Y completes in every state with Y - 1 in Y; DBNE dp completes where G = 0 and the byte may be modified,
reading it once and writing it less 1 back. PC becomes PC plus the signed displacement (decision D7, log entry 30)
exactly when the decremented value is not 0. No flag, no other register and no other byte of memory changes. Where the
byte cannot be modified DBNE dp faults. -/
def Obligations.DecrementAndBranch : Prop :=
  (∀ (rel : Byte) (s : State), exec (.dbneY rel) s = .next { s with
    y := s.y - 1,
    pc := if s.y - 1 = 0 then s.pc else BitVec.ofInt 16 ((s.pc.toNat : Int) + rel.toInt) }) ∧
  (∀ (d rel : Byte) (s : State),
    (flag .g s.psw = false → modifiable s.device (zext16 d) = true →
      ∃ v s2 pc, rewrites (zext16 d) v (v - 1) s s2 ∧ exec (.dbneDp d rel) s = .next (s2.withPc pc) ∧
        pc = (if v - 1 = 0 then s.pc else BitVec.ofInt 16 ((s.pc.toNat : Int) + rel.toInt)) ∧
        storedOnly (zext16 d) (v - 1) { s.cpu with pc := pc } s (s2.withPc pc)) ∧
    (flag .g s.psw = true ∨ modifiable s.device (zext16 d) = false → ∃ e, exec (.dbneDp d rel) s = .fault e))

/-- Where the two stack bytes may be written, CALL !abs, PCALL and TCALL complete: the address of the next instruction
is pushed high byte first, SP goes down by 2 and PC becomes the target: abs, FF00H + upage (decision D36, log entry
33), or the vector at FFC0H + 2(15 - n). CALL [dp] pushes the same way and then reads its target from the pair at dp;
that the pointer is read after the pushes is the spec's decision D22 (log entry 36). No flag, other register or other
byte of memory changes. Otherwise they fault. -/
def Obligations.Calls : Prop :=
  (∀ (i : Instr) (target : Word) (s : State), callTarget i s = some target →
    (pushable 2 s → ∃ t, pushed [hiByte s.pc, loByte s.pc] s t ∧ exec i s = .next (t.withPc target) ∧
      stackedOnly [hiByte s.pc, loByte s.pc] s t) ∧
    (¬ pushable 2 s → ∃ e, exec i s = .fault e)) ∧
  (∀ (d : Byte) (s : State),
    (pushable 2 s → ∃ t, pushed [hiByte s.pc, loByte s.pc] s t ∧ stackedOnly [hiByte s.pc, loByte s.pc] s t ∧
      (∀ target u, readPair d t = .ok target u →
        exec (.callIndDp d) s = .next (u.withPc target) ∧ ∃ k, u = t.spend k) ∧
      (∀ e, readPair d t = .fault e → exec (.callIndDp d) s = .fault e)) ∧
    (¬ pushable 2 s → ∃ e, exec (.callIndDp d) s = .fault e))

/-- Where G = 0, the stack bytes lie in RAM and both pointer bytes at dp and dp + 1 lie in RAM, CALL [dp] completes:
SP goes down by 2, PC becomes the pair at dp read after the pushes (the spec's decision D22, log entry 36), and only
the two stack bytes of memory may change. -/
def Obligations.CallReachesPointer : Prop :=
  ∀ (d : Byte) (s : State), flag .g s.psw = false → stackInRam 2 s → inRam (zext16 d) → inRam (zext16 (d + 1)) →
    ∃ t, exec (.callIndDp d) s = .next t ∧
      t.cpu = { s.cpu with sp := s.sp - 2, pc := t.ramByte (zext16 (d + 1)) ++ t.ramByte (zext16 d) } ∧
      memoryKept (fun a => a = stackByte s 0 ∨ a = stackByte s 1) s t ∧ t.peripherals = s.peripherals

/-- JMP !abs completes with PC = abs. JMP [!abs] completes where both bytes at abs and abs + 1 can be read, with the
little-endian word there in PC; JMP [dp] where the pair at dp can be read. Nothing else changes. Otherwise they end in
the fault of the read. -/
def Obligations.Jumps : Prop :=
  ∀ s : State,
    (∀ a : Word, exec (.jmpAbs a) s = .next (s.withPc a)) ∧
    (∀ (a : Word) lo hi s1 s2, memRead a s = .ok lo s1 → memRead (a + 1) s1 = .ok hi s2 →
      ∃ t, exec (.jmpIndAbs a) s = .next t ∧ onlyCpu { s.cpu with pc := hi ++ lo } s t) ∧
    (∀ a : Word, readable s.device a = false ∨ readable s.device (a + 1) = false →
      ∃ e, exec (.jmpIndAbs a) s = .fault e) ∧
    (∀ d target s1, readPair d s = .ok target s1 →
      ∃ t, exec (.jmpIndDp d) s = .next t ∧ onlyCpu { s.cpu with pc := target } s t) ∧
    (∀ d e, readPair d s = .fault e → exec (.jmpIndDp d) s = .fault e)

/-! ## Control, stack and exceptions -/

/-- PUSH completes where the byte SP points at may be written: the register is written there and SP goes down by 1.
POP completes where the byte above can be read: SP goes up by 1 and the register, all eight bits of PSW included,
takes the byte. No flag changes but by POP PSW, and nothing else changes. Otherwise they fault. -/
def Obligations.PushesAndPops : Prop :=
  (∀ (i : Instr) (v : Byte) (s : State), pushForm i s = some v →
    (pushable 1 s → ∃ t, pushed [v] s t ∧ exec i s = .next t ∧ stackedOnly [v] s t) ∧
    (¬ pushable 1 s → ∃ e, exec i s = .fault e)) ∧
  (∀ (i : Instr) (s : State), (popForm i s.cpu 0).isSome = true →
    (∀ v s1, memRead (zext16 (s.sp + 1)) s = .ok v s1 →
      ∃ c t, popForm i { s.cpu with sp := s.sp + 1 } v = some c ∧ exec i s = .next t ∧ onlyCpu c s t) ∧
    (readable s.device (zext16 (s.sp + 1)) = false → ∃ e, exec i s = .fault e))

/-- RET completes where the two bytes above SP can be read: PC takes them, low byte first, and SP goes up by 2. RETI
completes where the three bytes above SP can be read: PSW takes the first, all eight flags, PC the next two, and SP
goes up by 3. Nothing else changes. Otherwise they fault. -/
def Obligations.Returns : Prop :=
  ∀ s : State,
    (∀ lo hi s1 s2, memRead (zext16 (s.sp + 1)) s = .ok lo s1 → memRead (zext16 (s.sp + 2)) s1 = .ok hi s2 →
      ∃ t, exec .ret s = .next t ∧ onlyCpu { s.cpu with sp := s.sp + 2, pc := hi ++ lo } s t) ∧
    (∀ psw lo hi s1 s2 s3, memRead (zext16 (s.sp + 1)) s = .ok psw s1 → memRead (zext16 (s.sp + 2)) s1 = .ok lo s2 →
      memRead (zext16 (s.sp + 3)) s2 = .ok hi s3 →
      ∃ t, exec .reti s = .next t ∧ onlyCpu { s.cpu with sp := s.sp + 3, psw := psw, pc := hi ++ lo } s t) ∧
    (readable s.device (zext16 (s.sp + 1)) = false ∨ readable s.device (zext16 (s.sp + 2)) = false →
      (∃ e, exec .ret s = .fault e) ∧ ∃ e, exec .reti s = .fault e) ∧
    (readable s.device (zext16 (s.sp + 3)) = false → ∃ e, exec .reti s = .fault e)

/-- With the stack in RAM, after any call (CALL !abs, PCALL, TCALL, CALL [dp]) and whatever the callee did that left
SP and the two stack bytes as the call left them, RET completes with PC at the instruction after the call and SP as
before the call, and changes nothing else of the callee's state. -/
def Obligations.CallThenReturn : Prop :=
  ∀ (i : Instr) (s t h : State), (callTarget i s).isSome = true ∨ (∃ d, i = .callIndDp d) → stackInRam 2 s →
    exec i s = .next t → h.sp = t.sp → (∀ k, k < 2 → h.byteAt (stackByte s k) = t.byteAt (stackByte s k)) →
    ∃ u, exec .ret h = .next u ∧ onlyCpu { h.cpu with sp := s.sp, pc := s.pc } h u

/-- Where the three stack bytes may be written, BRK completes whatever I and the enable bits hold: the address of the
next instruction is pushed high byte first, then PSW with every flag as it was but B, which is 1 where BRK_PUSHED_B is
1 or not supplied and as it was where it is 0 (decision D17; that a B already 1 is pushed as 1 there is the model's
choice; log entry 15); then B = 1, I = 0, the other flags kept, SP three lower and PC the word at FFDEH. No other
register or byte of memory changes. Otherwise it faults. -/
def Obligations.SoftwareInterrupt : Prop :=
  ∀ s : State,
    (pushable 3 s → ∃ image psw t, flag .b image = (Config.brkPushedB.getD true || flag .b s.psw) ∧ flagsKept [.b] s.psw image ∧
      pushed [hiByte s.pc, loByte s.pc, image] s t ∧ stackedOnly [hiByte s.pc, loByte s.pc, image] s t ∧
      exec .brk s = .next ((t.withPsw psw).withPc (s.romByte 0xFFDF ++ s.romByte 0xFFDE)) ∧
      flag .b psw = true ∧ flag .i psw = false ∧ flagsKept [.b, .i] s.psw psw) ∧
    (¬ pushable 3 s → ∃ e, exec .brk s = .fault e)

/-- A source is accepted exactly when I = 1, its request flag and its enable bit are 1 and no source of higher
priority (a smaller number in the table of R410) is both requested and enabled; with I = 0 none is, so a handler is
not interrupted by a higher source. Taking the acceptance of a source with the stack in RAM leaves I = 0 and leaves
every other source's request flag as it was. -/
def Obligations.InterruptPriority : Prop :=
  (∀ (s : State) (src : IntSource), acceptable s = some src ↔
    flag .i s.psw = true ∧ src.requested s.irq = true ∧ src.enabled s.irq = true ∧
      ∀ other : IntSource, other.priority < src.priority → ¬ (other.requested s.irq = true ∧ other.enabled s.irq = true)) ∧
  (∀ s : State, flag .i s.psw = false → acceptable s = none) ∧
  (∀ (s : State) (src : IntSource), stackInRam 3 s → ∃ t, acceptInterrupt src s = .ok () t ∧
    flag .i t.psw = false ∧ src.requested t.irq = false ∧
      ∀ other, other ≠ src → other.requested t.irq = other.requested s.irq)

/-- When the CPU moves in Run mode and a source is acceptable, the step takes it: the request flag of that source is
cleared, PC is pushed high byte first and then PSW as it was (I = 1), I becomes 0 and no other flag changes, SP goes
down by 3, and PC becomes the word at the source's vector. A, X, Y, the other bytes of memory and (with the stack in
RAM) the other peripherals do not change. The order of the pushes and the PSW pushed are the spec's decisions (log
entry 39). Where a stack byte may not be written the step faults. -/
def Obligations.InterruptAcceptance : Prop :=
  ∀ (s : State) (src : IntSource) (mid : List Event) (rest : List Turn), s.bootPending = false →
    s.power.clockHalted = false → s.mode = .run → acceptable s = some src → cpuMoves s mid rest →
    (pushable 3 s → ∃ psw t,
      pushed [hiByte s.pc, loByte s.pc, s.psw] ((s.withSchedule rest).withIrq (src.clear s.irq)) t ∧
      stackedOnly [hiByte s.pc, loByte s.pc, s.psw] ((s.withSchedule rest).withIrq (src.clear s.irq)) t ∧
      step s = .next ((t.withPsw psw).withPc (s.romByte (src.vector + 1) ++ s.romByte src.vector)) ∧
      flag .i psw = false ∧ flagsKept [.i] s.psw psw) ∧
    (¬ pushable 3 s → ∃ e, step s = .fault e)

/-- With the stack in RAM, after a step that accepted an interrupt and whatever the handler did that left SP and the
three stack bytes as acceptance left them, RETI completes with PC, all of PSW (I = 1 included) and SP as they were
when the interrupt was accepted, and changes nothing else of the handler's state. That the pushed PSW has I = 1 and
the order of the pushes are the spec's decisions D17 and D35 (log entry 39). -/
def Obligations.AcceptThenReturn : Prop :=
  ∀ (s t h : State) (src : IntSource) (mid : List Event) (rest : List Turn), s.bootPending = false →
    s.power.clockHalted = false → s.mode = .run → acceptable s = some src → cpuMoves s mid rest → stackInRam 3 s →
    step s = .next t → h.sp = t.sp → (∀ k, k < 3 → h.byteAt (stackByte s k) = t.byteAt (stackByte s k)) →
    ∃ u, exec .reti h = .next u ∧ onlyCpu { h.cpu with sp := s.sp, pc := s.pc, psw := s.psw } h u ∧
      flag .i u.psw = true

/-- In a power-saving mode, a step that is no reset or power failure (an event of that kind, or the CPU's turn in STOP
or RC watchdog mode with WDTON = 1 and a watchdog counter one below WDTR, where the overflow of the wake-up may reset)
answers a next state with every CPU register and every byte of memory as before; in STOP and RC watchdog mode timers,
buzzer and A/D converter do not move either. The mode stays or returns to Run. -/
def Obligations.StoppedCpuChangesNothing : Prop :=
  ∀ s : State, s.mode ≠ .run → s.bootPending = false →
    (∀ e rest, s.schedule = .env e :: rest → e = .supplyRecovers ∨ e.disrupts s = false) →
    (∀ mid rest, cpuMoves s mid rest →
      s.mode = .wakeupTimer ∨ s.clock.wdton = false ∨ s.clock.wdtcnt + 1 ≠ s.clock.wdtr) →
    ∃ t, step s = .next t ∧ t.cpu = s.cpu ∧ (∀ a, t.byteAt a = s.byteAt a) ∧ (t.mode = s.mode ∨ t.mode = .run) ∧
      (s.mode = .stop ∨ s.mode = .rcWdt → t.timers = s.timers ∧ t.buzzer = s.buzzer ∧ t.adc = s.adc)

/-- STOP completes in every state: CPU registers, request flags and memory are kept. It enters the mode of CKCTLR
(WAKEUP = 1 the wake-up timer mode, else RCWDT = 1 the RC watchdog mode, else STOP mode) and changes nothing else
while no release source of that mode (INT0, INT1; Timer 0 in wake-up timer mode; the watchdog in RC watchdog mode with
WDTON = 0) has its request flag set; with the flag and the enable bit of one at 1 it acts as a NOP, in Run. When a
stopped CPU moves: if the flag and the enable bit of a release source are 1, the step returns to Run with CPU
registers, memory and every request flag kept; from STOP and RC watchdog mode BITR is then 00H after one overflow
(R438, log entry 28), which the watchdog counts (R442): at WDTR it sets WDTIF, or with WDTON = 1 resets the CPU
instead; if no release source's flag is 1, the CPU stays stopped and only its turn is used up. A flag whose enable bit
is 0 follows STOP_WAKE_NEEDS_IEN, open (log entry 9). -/
def Obligations.StopAndRelease : Prop :=
  (∀ s : State,
    let m : Mode := if s.clock.wakeup then .wakeupTimer else if s.clock.rcwdt then .rcWdt else .stop
    ((∀ src, releasesMode m s.clock.wdton src → src.requested s.irq = false) →
      exec .stop s = .next (s.withMode m)) ∧
    ((∃ src, releasesMode m s.clock.wdton src ∧ src.requested s.irq = true ∧ src.enabled s.irq = true) →
      exec .stop s = .next (s.withMode .run)) ∧
    ∃ t, exec .stop s = .next t ∧ (t.mode = m ∨ t.mode = .run) ∧ t.cpu = s.cpu ∧ t.irq = s.irq ∧ t.mem = s.mem) ∧
  ∀ (s : State) (mid : List Event) (rest : List Turn), s.mode ≠ .run → s.bootPending = false →
    s.power.clockHalted = false → cpuMoves s mid rest →
    ((∃ src, releasesMode s.mode s.clock.wdton src ∧ src.requested s.irq = true ∧ src.enabled s.irq = true) →
      (s.mode = .wakeupTimer → step s = .next ((s.withSchedule rest).withMode .run)) ∧
      (s.mode ≠ .wakeupTimer → s.clock.wdton = false ∨ s.clock.wdtcnt + 1 ≠ s.clock.wdtr →
        ∃ t, step s = .next t ∧ t.mode = .run ∧ t.cpu = s.cpu ∧ (∀ a, t.byteAt a = s.byteAt a) ∧
          (∀ src : IntSource, src.requested s.irq = true → src.requested t.irq = true) ∧
          t.clock = { s.clock with
            bitr := 0, wdtcnt := if s.clock.wdtcnt + 1 = s.clock.wdtr then 0 else s.clock.wdtcnt + 1,
            wdtWrapped := decide (s.clock.wdtcnt + 1 ≠ s.clock.wdtr) &&
              (s.clock.wdtWrapped || decide (s.clock.wdtcnt = 0x7F)) } ∧
          (s.clock.wdtcnt + 1 = s.clock.wdtr → IntSource.watchdog.requested t.irq = true)) ∧
      (s.mode ≠ .wakeupTimer → s.clock.wdton = true → s.clock.wdtcnt + 1 = s.clock.wdtr →
        ∃ t, step s = .next t ∧ t.mode = .run ∧ t.pc = s.romByte 0xFFFF ++ s.romByte 0xFFFE ∧
          t.clock = State.reset.clock ∧ ∀ a, t.byteAt a = s.byteAt a)) ∧
    ((∀ src, releasesMode s.mode s.clock.wdton src → src.requested s.irq = false) →
      step s = .next (s.withSchedule rest)) ∧
    (∀ needs, Config.stopWakeNeedsIen = some needs →
      (∃ src, releasesMode s.mode s.clock.wdton src ∧ src.requested s.irq = true) →
      (∀ src, releasesMode s.mode s.clock.wdton src → src.requested s.irq = true → src.enabled s.irq = false) →
      ∃ t, step s = .next t ∧ (t.mode = .run ↔ needs = false))

/-! ## Reset and peripherals -/

/-- In the state right after reset: every direction and function register is 0, no pull-up is selected, TM0, T0, CDR0,
TM1, T1, CDR1, T1PDR, PWM0HR are 0, TDR0, TDR1 and BUR are FFH, every enable bit and request flag and IEDS are 0, ADCM
has ADSF = 1 only, BITR is 00H, CKCTLR is -001_0111, WDTR is 7FH, PFDR is 0100, the watchdog, PWM and buzzer counters
are 0, no conversion is in progress and the mode is Run. Registers whose reset value the manual does not give are not
spoken of. -/
def Obligations.ResetValues : Prop :=
  let s := State.reset
  s.mode = .run ∧ s.mem = [] ∧
  (s.ports.raio = 0 ∧ s.ports.rbio = 0 ∧ s.ports.rcio = 0 ∧ s.ports.rdio = 0 ∧ s.ports.rafunc = 0 ∧
    s.ports.rbfunc = 0 ∧ s.ports.pupsel = 0) ∧
  (s.timers.tm0 = 0 ∧ s.timers.t0 = 0 ∧ s.timers.tdr0 = 0xFF ∧ s.timers.cdr0 = 0 ∧ s.timers.tm1 = 0 ∧
    s.timers.t1 = 0 ∧ s.timers.tdr1 = 0xFF ∧ s.timers.cdr1 = 0 ∧ s.timers.t1pdr = 0 ∧ s.timers.pwm0hr = 0 ∧
    s.timers.pwmCnt = 0 ∧ s.timers.dutyS = 0) ∧
  (s.irq.ienh = 0 ∧ s.irq.ienl = 0 ∧ s.irq.irqh = 0 ∧ s.irq.irql = 0 ∧ s.irq.ieds = 0) ∧
  (s.clock.wakeup = false ∧ s.clock.rcwdt = false ∧ s.clock.wdton = true ∧ s.clock.bts = 7 ∧ s.clock.bitr = 0 ∧
    s.clock.wdtr = 0x7F ∧ s.clock.wdtcnt = 0 ∧ s.clock.wdtWrapped = false) ∧
  (s.buzzer.bur = 0xFF ∧ s.buzzer.cnt = 0) ∧
  (s.adc.aden = false ∧ s.adc.ads = 0 ∧ s.adc.adsf = true ∧ s.adc.busy = false) ∧ s.power.pfdr = 0x4

/-- Whatever the mode and the state, a RESET-pin event or a power-on event completes with PC the word at FFFEH, Run
mode, every source disabled and no request pending, every port an input, the clock unit and the timers (the hidden
counters included, the compare latch COMP0 aside) at their reset values, and the program memory as it was; it pushes
nothing. No event but a power-on changes a RAM byte other than one that the instruction at PC, cut short by it,
writes; while the CPU is stopped there is none. An instruction that is not cut short changes no byte of memory outside
these. What may stand in them the event says (log entry 22). -/
def Obligations.ResetEvents : Prop :=
  (∀ (s : State) (e : Event) (rest : List Turn), s.schedule = .env e :: rest →
    e = .resetPowerOn ∨ (∃ torn, e = .resetPin torn) →
    ∃ t, step s = .next t ∧ t.schedule = rest ∧ t.pc = s.romByte 0xFFFF ++ s.romByte 0xFFFE ∧ t.mode = .run ∧
      t.power = State.reset.power ∧ t.clock = State.reset.clock ∧
      t.irq.ienh = 0 ∧ t.irq.ienl = 0 ∧ t.irq.irqh = 0 ∧ t.irq.irql = 0 ∧
      t.ports.raio = 0 ∧ t.ports.rbio = 0 ∧ t.ports.rcio = 0 ∧ t.ports.rdio = 0 ∧
      t.timers = { State.reset.timers with comp0 := t.timers.comp0 } ∧ t.device = s.device ∧
      (∀ a : Word, s.device.romBase ≤ a.toNat → t.romByte a = s.romByte a) ∧
      (∀ torn, e = .resetPin torn → ∀ a : Word, inRam a → (∀ c ∈ torn, c.1.toNat ≠ a.toNat) →
        t.ramByte a = s.ramByte a)) ∧
  (∀ (s t : State) (e : Event) (rest : List Turn), s.schedule = .env e :: rest → e ≠ .resetPowerOn →
    step s = .next t → ∀ a : Word, inRam a → a ∉ interruptedWrites s → t.ramByte a = s.ramByte a) ∧
  (∀ s : State, s.mode ≠ .run → interruptedWrites s = []) ∧
  (∀ (s t : State) (mid : List Event) (rest : List Turn), runsInstruction s → cpuMoves s mid rest →
    step s = .next t → memoryKept (· ∈ interruptedWrites s) s t)

/-- In Run or RC watchdog mode a clock of the basic interval timer adds 1 to BITR; at FFH it becomes 00H, BITIF is set
and the watchdog counter counts. When that count reaches WDTR[6:0] the watchdog matches: with WDTON = 0 WDTIF is set
and the counter restarts from 0, with WDTON = 1 the CPU is reset and PC is the reset vector; otherwise the count is
kept. In the same modes the environment may deliver the match once one overflow at least and as many as WDTR[6:0] have
been counted since the counter was cleared; before that the event changes nothing. After an instruction that leaves
the counter equal to WDTR[6:0] with an overflow counted the watchdog matches too. No CPU register changes but by the
reset. That the counter restarts, and that the match comes with the count or at the end of the instruction, is the
model's reading; the field wdtWrapped, set when the counter goes from 7FH to 00H, is its own (log entry 44). -/
def Obligations.WatchdogAndIntervalTimer : Prop :=
  (∀ (s : State) (torn : Torn) (rest : List Turn), s.schedule = .env (.bitClock torn) :: rest →
    s.mode = .run ∨ s.mode = .rcWdt → s.power.clockHalted = false →
    (s.clock.bitr ≠ 0xFF →
      step s = .next ((s.withSchedule rest).withClock { s.clock with bitr := s.clock.bitr + 1 })) ∧
    (s.clock.bitr = 0xFF → s.clock.wdtcnt + 1 ≠ s.clock.wdtr →
      step s = .next (((s.withSchedule rest).withClock
        { s.clock with
          bitr := 0, wdtcnt := s.clock.wdtcnt + 1,
          wdtWrapped := s.clock.wdtWrapped || decide (s.clock.wdtcnt = 0x7F) }).withIrq
        (IntSource.basicInterval.raise s.irq))) ∧
    (s.clock.bitr = 0xFF → s.clock.wdtcnt + 1 = s.clock.wdtr → s.clock.wdton = false →
      step s = .next (((s.withSchedule rest).withClock
        { s.clock with bitr := 0, wdtcnt := 0, wdtWrapped := false }).withIrq
        (IntSource.watchdog.raise (IntSource.basicInterval.raise s.irq)))) ∧
    (s.clock.bitr = 0xFF → s.clock.wdtcnt + 1 = s.clock.wdtr → s.clock.wdton = true →
      ∃ t, step s = .next t ∧ t.pc = s.romByte 0xFFFF ++ s.romByte 0xFFFE ∧ t.mode = .run ∧
        t.clock = State.reset.clock ∧ t.irq.irqh = 0 ∧ t.irq.irql = 0)) ∧
  (∀ (s : State) (torn : Torn) (rest : List Turn), s.schedule = .env (.watchdogMatch torn) :: rest →
    s.mode = .run ∨ s.mode = .rcWdt → s.power.clockHalted = false →
    let due := s.clock.wdtWrapped = true ∨ (0 < s.clock.wdtcnt.toNat ∧ s.clock.wdtr.toNat ≤ s.clock.wdtcnt.toNat)
    (¬ due → step s = .next (s.withSchedule rest)) ∧
    (due → s.clock.wdton = false →
      step s = .next (((s.withSchedule rest).withClock { s.clock with wdtcnt := 0, wdtWrapped := false }).withIrq
        (IntSource.watchdog.raise s.irq))) ∧
    (due → s.clock.wdton = true →
      ∃ t, step s = .next t ∧ t.pc = s.romByte 0xFFFF ++ s.romByte 0xFFFE ∧ t.mode = .run ∧
        t.clock = State.reset.clock ∧ t.irq.irqh = 0 ∧ t.irq.irql = 0)) ∧
  (∀ s : State,
    let equal := s.clock.wdtcnt = s.clock.wdtr ∧ (s.clock.wdtWrapped = true ∨ s.clock.wdtcnt ≠ 0)
    (¬ equal → settleWatchdog s = s) ∧
    (equal → s.clock.wdton = false →
      settleWatchdog s = (s.withClock { s.clock with wdtcnt := 0, wdtWrapped := false }).withIrq
        (IntSource.watchdog.raise s.irq)) ∧
    (equal → s.clock.wdton = true →
      (settleWatchdog s).pc = s.romByte 0xFFFF ++ s.romByte 0xFFFE ∧ (settleWatchdog s).mode = .run ∧
        (settleWatchdog s).clock = State.reset.clock ∧ (settleWatchdog s).mem = s.mem))

/-- While timer 0 runs from an internal clock, in Run mode or in wake-up timer mode with T0CK = 110, a tick adds 1 to
T0, or at TDR0 sets T0 to 00H and T0IF; in 16-bit mode the same holds of T1:T0 and TDR1:TDR0, with COMP0 toggled; in
every other mode a tick changes nothing. While timer 1 runs as an 8-bit timer in Run mode, not from EC0, a tick adds 1
to T1, or at TDR1 sets T1 to 00H, toggles COMP0 and sets T1IF. With T0CK = 111 and RA0 an input, a rising edge of EC0
in Run mode, without an edge on INT0 or INT1, is such a tick of timer 0 or of the pair, and of timer 1 where T1CK = 11
makes it share the clock. Nothing else changes but the pin levels. That the request comes with the return to 00H is
decision D41 (log entry 45). -/
def Obligations.TimerTicks : Prop :=
  ∀ (s : State) (rest : List Turn), s.power.clockHalted = false →
    (s.schedule = .env .t0Clock :: rest → s.timers.t0cn = true → s.timers.t0st = true →
      (s.mode = .run ∧ s.timers.t0ck ≠ 7 ∨ s.mode = .wakeupTimer ∧ s.timers.t0ck = 6 →
        (s.timers.bit16 = false → step s = .next (timer0Counted (s.withSchedule rest))) ∧
        (s.timers.bit16 = true → s.timers.t1ck = 3 → ∃ t, step s = .next t ∧ pairCounted (s.withSchedule rest) t)) ∧
      (s.mode ≠ .run → ¬ (s.mode = .wakeupTimer ∧ s.timers.t0ck = 6) → step s = .next (s.withSchedule rest))) ∧
    (s.schedule = .env .t1Clock :: rest → s.mode = .run → s.timers.t1cn = true → s.timers.t1st = true →
      s.timers.bit16 = false → s.timers.pwm0e = false → ¬ (s.timers.t1ck = 3 ∧ s.timers.t0ck = 7) →
      step s = .next (timer1Counted (s.withSchedule rest))) ∧
    (∀ (ra : BitVec 8) (rb : BitVec 5) (rc : BitVec 2) (rd : BitVec 4),
      s.schedule = .env (.pins ra rb rc rd) :: rest → s.mode = .run → s.timers.t0ck = 7 →
      s.ports.raio.getLsbD 0 = false → s.ports.pinA.getLsbD 0 = false → ra.getLsbD 0 = true →
      rb.getLsbD 2 = s.irq.int0Seen → rb.getLsbD 3 = s.irq.int1Seen → s.timers.t0cn = true → s.timers.t0st = true →
      let u := (s.withSchedule rest).withPorts { s.ports with pinA := ra, pinB := rb, pinC := rc, pinD := rd }
      (s.timers.bit16 = false → s.timers.t1ck ≠ 3 ∨ (s.timers.t1cn = false ∧ s.timers.t1st = false) →
        step s = .next (timer0Counted u)) ∧
      (s.timers.bit16 = false → s.timers.t1ck = 3 → s.timers.t1cn = true → s.timers.t1st = true →
        s.timers.pwm0e = false → step s = .next (timer1Counted (timer0Counted u))) ∧
      (s.timers.bit16 = true → s.timers.t1ck = 3 → ∃ t, step s = .next t ∧ pairCounted u t))

/-- In Run mode, when the levels of port B change, an edge of the kind IEDS selects (log entry 10) on INT0 or INT1,
where RBFUNC makes the pin an interrupt input and the package has it, sets the request flag of the source; no other
event occurs. With 16BIT = 0, INT0 with CAP0 = 1 and timer 0 running moves T0 to CDR0 and clears T0, whatever timer 1
does, and INT1 with CAP1 = 1 and timer 1 running moves T1 to CDR1 and clears T1, whatever timer 0 does; otherwise
these registers are kept. In 16-bit mode INT0 with CAP0 = 1 captures both bytes by the run bits of TM0 (R487, decision
D41), whatever CAP1 and the run bits of TM1 hold, and INT1 with CAP1 = 1 captures T1 by those of TM1 (R482, log entry
25), INT0 served first (log entry 46). With T1CK other than 11 there nothing is captured (log entry 25). A timer runs
with CN = ST = 1 and not with CN = ST = 0; of the other two settings nothing is claimed. No other timer register, no
CPU register and no byte of memory changes. -/
def Obligations.Captures : Prop :=
  ∀ (s : State) (rb : BitVec 5) (rest : List Turn),
    s.schedule = .env (.pins s.ports.pinA rb s.ports.pinC s.ports.pinD) :: rest → s.mode = .run →
    s.power.clockHalted = false →
    let edge0 := s.ports.int0i &&
      selectedEdge (Config.iedsEncoding (s.irq.ieds.extractLsb' 0 2)) s.irq.int0Seen (rb.getLsbD 2)
    let edge1 := s.ports.int1i && s.device.package.pinsB.getLsbD 3 &&
      selectedEdge (Config.iedsEncoding (s.irq.ieds.extractLsb' 2 2)) s.irq.int1Seen (rb.getLsbD 3)
    let asked0 := edge0 && s.timers.cap0
    let asked1 := edge1 && s.timers.cap1
    let takes0 := asked0 && s.timers.t0cn
    let takes1 := asked1 && s.timers.t1cn
    let settled0 := asked0 = false ∨ s.timers.t0cn = s.timers.t0st
    let settled1 := asked1 = false ∨ s.timers.t1cn = s.timers.t1st
    ∃ t, step s = .next t ∧ t.cpu = s.cpu ∧ (∀ a, t.byteAt a = s.byteAt a) ∧ t.ports = { s.ports with pinB := rb } ∧
      (∀ src : IntSource, src.requested t.irq =
        (src.requested s.irq || (decide (src = .int0) && edge0) || (decide (src = .int1) && edge1))) ∧
      t.timers = { s.timers with
        cdr0 := t.timers.cdr0, t0 := t.timers.t0, cdr1 := t.timers.cdr1, t1 := t.timers.t1 } ∧
      (s.timers.bit16 = false →
        (settled0 → t.timers.cdr0 = (if takes0 then s.timers.t0 else s.timers.cdr0) ∧
          t.timers.t0 = (if takes0 then 0 else s.timers.t0)) ∧
        (settled1 → t.timers.cdr1 = (if takes1 then s.timers.t1 else s.timers.cdr1) ∧
          t.timers.t1 = (if takes1 then 0 else s.timers.t1))) ∧
      (s.timers.bit16 = true → s.timers.t1ck = 3 → settled0 →
        t.timers.cdr0 = (if takes0 then s.timers.t0 else s.timers.cdr0) ∧
        t.timers.t0 = (if takes0 then 0 else s.timers.t0) ∧
        (settled1 →
          t.timers.cdr1 = (if takes0 then (if takes1 then 0 else s.timers.t1)
            else if takes1 then s.timers.t1 else s.timers.cdr1) ∧
          t.timers.t1 = (if takes0 || takes1 then 0 else s.timers.t1))) ∧
      (s.timers.bit16 = true → s.timers.t1ck ≠ 3 → t.timers = s.timers)

/-- In PWM mode a tick of timer 1 adds 1 to the PWM counter; at the period PWM0HR[3:2]:T1PPR it returns to 0 and the
duty PWM0HR[1:0]:T1PDR moves to the slave register. T1IF is set at the period match or not: the manual does not say,
the model leaves it free. That a period has PERIOD + 1 ticks and that the duty moves at the match is the event R496
derives (log entry 45). No other timer register, no CPU register and no byte of memory changes. -/
def Obligations.PwmTicks : Prop :=
  ∀ (s : State) (rest : List Turn), s.schedule = .env .t1Clock :: rest → s.mode = .run → s.power.clockHalted = false →
    s.timers.t1cn = true → s.timers.t1st = true → s.timers.bit16 = false → s.timers.pwm0e = true →
    ¬ (s.timers.t1ck = 3 ∧ s.timers.t0ck = 7) →
    ∃ t, step s = .next t ∧ t.cpu = s.cpu ∧ (∀ a, t.byteAt a = s.byteAt a) ∧
      (if s.timers.pwmCnt.toNat = (s.timers.pwm0hr.toNat / 4) * 256 + s.timers.tdr1.toNat
       then t.timers = { s.timers with pwmCnt := 0, dutyS := t.timers.dutyS } ∧
         t.timers.dutyS.toNat = (s.timers.pwm0hr.toNat % 4) * 256 + s.timers.t1pdr.toNat ∧
         (t.irq = s.irq ∨ t.irq = IntSource.timer1.raise s.irq)
       else t.timers = { s.timers with pwmCnt := s.timers.pwmCnt + 1 } ∧ t.irq = s.irq)

/-- A write of v to ADCM stores ADEN and ADS. With ADEN = 1, or where ADEN_SEMANTICS is not supplied, bit 1 set clears
ADSF and starts a conversion of channel v[4:2] and bit 1 clear changes nothing more; while a conversion is in progress
in Run mode its end loads ADCR with the result the environment gives, sets ADSF and ADIF and ends the conversion. With
ADEN = 0 and ADEN_SEMANTICS supplied, it says whether bit 1 starts a conversion, whether one in progress is kept, and
whether one may end. Nothing else changes. The result is the environment's (decision D42). -/
def Obligations.AdConversion : Prop :=
  (∀ (s : State) (v : Byte), ∃ t, memWrite 0xEA v s = .ok () t ∧ t = s.withAdc t.adc ∧
    t.adc.aden = v.getLsbD 5 ∧ t.adc.ads = v.extractLsb' 2 3 ∧ t.adc.adcr = s.adc.adcr ∧
    (v.getLsbD 5 = true ∨ Config.adenSemantics = none →
      (v.getLsbD 1 = true → t.adc.adsf = false ∧ t.adc.busy = true ∧ t.adc.channel = v.extractLsb' 2 3) ∧
      (v.getLsbD 1 = false →
        t.adc.adsf = s.adc.adsf ∧ t.adc.busy = s.adc.busy ∧ t.adc.channel = s.adc.channel)) ∧
    (∀ f, v.getLsbD 5 = false → Config.adenSemantics = some f →
      if v.getLsbD 1 = true ∧ f.starts = true then
        t.adc.adsf = false ∧ t.adc.busy = true ∧ t.adc.channel = v.extractLsb' 2 3
      else t.adc.adsf = s.adc.adsf ∧ t.adc.channel = s.adc.channel ∧
        (t.adc.busy = true ↔ s.adc.busy = true ∧ f.keeps = true))) ∧
  (∀ (s : State) (result : Byte) (rest : List Turn), s.schedule = .env (.adcDone result) :: rest → s.mode = .run →
    s.power.clockHalted = false → s.adc.busy = true →
    let ended := ((s.withSchedule rest).withAdc { s.adc with adcr := result, adsf := true, busy := false }).withIrq
      (IntSource.adc.raise s.irq)
    (s.adc.aden = true ∨ Config.adenSemantics = none → step s = .next ended) ∧
    (∀ f, s.adc.aden = false → Config.adenSemantics = some f →
      step s = .next (if f.completes then ended else s.withSchedule rest)))

/-- After a byte is written to IENH, IENL, IRQH, IRQL, IEDS, TM0, TM1 or PFDR, a read of the same address gives the
written value in every implemented bit whose value is not the hardware's to change; of the unimplemented bits, and of
PFDS, which is free or as PFDR_SEMANTICS says (log entry 12), nothing is claimed. The places of the bits of PFDR are
an inference of R520 (log entry 41). The write changes no CPU register and no byte of memory. A write that starts
timer 0 or 1 (CN = ST = 1 after CN = ST = 0) clears its count. A write to CKCTLR stores WAKEUP, RCWDT, WDTON and BTS
from bits 6, 5, 4 and 2 to 0, and with bit 3 set clears BITR; one to WDTR stores the compare value, and with bit 7 set
clears the watchdog counter; one to TDR0, TDR1 (which is T1PPR), T1PDR, PWM0HR, BUR (which clears the buzzer counter),
RAIO, RBIO, RCIO, RDIO, RAFUNC, RBFUNC or PUPSEL stores the implemented bits; none of these changes anything else. -/
def Obligations.ControlRegistersReadBack : Prop :=
  ∀ (v : Byte) (s : State),
    (∀ (a : Word) (mask : Byte),
      (a, mask) ∈ [((0xE2 : Word), (0xF0 : Byte)), (0xE3, 0xE0), (0xE4, 0xF0), (0xE5, 0xE0), (0xE6, 0x0F),
        (0xD0, 0x3F), (0xD2, 0xFF), (0xEF, 0x0E)] →
      ∃ t w u, memWrite a v s = .ok () t ∧ memRead a t = .ok w u ∧ w &&& mask = v &&& mask ∧
        t.cpu = s.cpu ∧ ∀ b, t.byteAt b = s.byteAt b) ∧
    (v.getLsbD 1 = true → v.getLsbD 0 = true →
      (s.timers.t0cn = false → s.timers.t0st = false →
        memWrite 0xD0 v s = .ok () (s.withTimers { s.timers with tm0 := v.extractLsb' 0 6, t0 := 0 })) ∧
      (s.timers.t1cn = false → s.timers.t1st = false →
        ∃ t, memWrite 0xD2 v s = .ok () t ∧
          t = s.withTimers { s.timers with tm1 := v, t1 := 0, pwmCnt := t.timers.pwmCnt })) ∧
    memWrite 0xEC v s = .ok () (s.withClock { s.clock with
      wakeup := v.getLsbD 6, rcwdt := v.getLsbD 5, wdton := v.getLsbD 4, bts := v.extractLsb' 0 3,
      bitr := if v.getLsbD 3 then 0 else s.clock.bitr }) ∧
    memWrite 0xED v s = .ok () (s.withClock { s.clock with
      wdtr := v.extractLsb' 0 7, wdtcnt := if v.getLsbD 7 then 0 else s.clock.wdtcnt,
      wdtWrapped := if v.getLsbD 7 then false else s.clock.wdtWrapped }) ∧
    memWrite 0xD1 v s = .ok () (s.withTimers { s.timers with tdr0 := v }) ∧
    memWrite 0xD3 v s = .ok () (s.withTimers { s.timers with tdr1 := v }) ∧
    memWrite 0xD4 v s = .ok () (s.withTimers { s.timers with t1pdr := v }) ∧
    memWrite 0xD5 v s = .ok () (s.withTimers { s.timers with pwm0hr := v.extractLsb' 0 4 }) ∧
    memWrite 0xDE v s = .ok () (s.withBuzzer { s.buzzer with bur := v, cnt := 0 }) ∧
    memWrite 0xC1 v s = .ok () (s.withPorts { s.ports with raio := v }) ∧
    memWrite 0xC3 v s = .ok () (s.withPorts { s.ports with rbio := v.extractLsb' 0 5 }) ∧
    memWrite 0xC5 v s = .ok () (s.withPorts { s.ports with rcio := v.extractLsb' 0 2 }) ∧
    memWrite 0xC7 v s = .ok () (s.withPorts { s.ports with rdio := v.extractLsb' 0 4 }) ∧
    memWrite 0xCA v s = .ok () (s.withPorts { s.ports with rafunc := v }) ∧
    memWrite 0xCB v s = .ok () (s.withPorts { s.ports with rbfunc := v.extractLsb' 0 5 }) ∧
    memWrite 0xCC v s = .ok () (s.withPorts { s.ports with pupsel := v.extractLsb' 0 4 })

/-- A write to RA, RB, RC or RD stores the implemented bits in the output latch and changes nothing else. A read of
the port uses free values at most and gives, for every pin that the package has and whose alternate function is not
selected, the level of the pin: the latch bit for an output (decision D39, log entry 43), the level the environment
gives it for an input and for an open-drain output that holds 1. The machine drives the pin to its latch bit in the
first case and drives no level in the others. RA has 8 pins, RB 5 (0, 2 and 4 only on package P16), RC 2 (none on
P16), RD 4 (on P24 only). RA7 to RA1 have the alternate function of RAFUNC, RB4 to RB0 that of RBFUNC, and RB0 also
that of RAFUNC bit 0. -/
def Obligations.PortReadsAndWrites : Prop :=
  (∀ (s : State) (v : Byte),
    memWrite 0xC0 v s = .ok () (s.withPorts { s.ports with latchA := v }) ∧
    memWrite 0xC2 v s = .ok () (s.withPorts { s.ports with latchB := v.extractLsb' 0 5 }) ∧
    memWrite 0xC4 v s = .ok () (s.withPorts { s.ports with latchC := v.extractLsb' 0 2 }) ∧
    memWrite 0xC6 v s = .ok () (s.withPorts { s.ports with latchD := v.extractLsb' 0 4 })) ∧
  ∀ s : State,
    portShows s 0xC0 (fun n => n < 8 ∧ (n = 0 ∨ s.ports.rafunc.getLsbD n = false))
      (driveRA s) s.ports.raio.getLsbD s.ports.latchA.getLsbD s.options.openDrainA.getLsbD s.ports.pinA.getLsbD ∧
    portShows s 0xC2 (fun n => n < 5 ∧ (s.device.package = .p16 → n % 2 = 0) ∧ s.ports.rbfunc.getLsbD n = false ∧
        (n = 0 → s.ports.rafunc.getLsbD 0 = false))
      (driveRB s) s.ports.rbio.getLsbD s.ports.latchB.getLsbD s.options.openDrainB.getLsbD s.ports.pinB.getLsbD ∧
    portShows s 0xC4 (fun n => n < 2 ∧ s.device.package ≠ .p16)
      (driveRC s) s.ports.rcio.getLsbD s.ports.latchC.getLsbD s.options.openDrainC.getLsbD s.ports.pinC.getLsbD ∧
    portShows s 0xC6 (fun n => n < 4 ∧ s.device.package = .p24)
      (driveRD s) s.ports.rdio.getLsbD s.ports.latchD.getLsbD s.options.openDrainD.getLsbD s.ports.pinD.getLsbD

/-- While G = 0, CLR1 of a bit of IRQH completes with IRQH the value read at the start with that bit cleared, whatever
peripheral events fired between the read and the write: a request that an event set in between is overwritten. The
manual does not say so: it is R562's sentence about the model, and that events fall between the read and the write is
log entry 21. No CPU register and no byte of memory changes. -/
def Obligations.RequestLostByReadModifyWrite : Prop :=
  ∀ (bit : BitVec 3) (s : State), flag .g s.psw = false →
    ∃ t, exec (.clr1 bit 0xE4) s = .next t ∧ t.cpu = s.cpu ∧ (∀ a, t.byteAt a = s.byteAt a) ∧
      ∀ n, n < 4 → t.irq.irqh.getLsbD n = (s.irq.irqh.getLsbD n && decide (n + 4 ≠ bit.toNat))

end Statements
end

