-- ==== Sys2Proof/Laws/Flags.lean ====
section
/-! SUPPORT. Reading a flag after writing one. -/

namespace Sys2Proof.Machine

/-- A flag after a write: the value written, or what it was. -/
@[simp] theorem flag_setFlag (f written : Flag) (v : Bool) (p : Byte) :
    flag f (setFlag written v p) = if f = written then v else flag f p := by
  cases f <;> cases written <;> cases v <;> simp [flag, setFlag, testBit, Flag.bit, bitMask]

/-- A PSW byte is its eight flags (R30). -/
theorem psw_ext (p q : Byte) (h : ∀ f, flag f p = flag f q) : p = q := by
  apply BitVec.eq_of_getLsbD_eq
  intro i hi
  have hc := h .c; have hz := h .z; have hi' := h .i; have hh := h .h
  have hb := h .b; have hg := h .g; have hv := h .v; have hn := h .n
  simp only [flag, testBit, Flag.bit] at hc hz hi' hh hb hg hv hn
  have : i = 0 ∨ i = 1 ∨ i = 2 ∨ i = 3 ∨ i = 4 ∨ i = 5 ∨ i = 6 ∨ i = 7 := by omega
  rcases this with rfl | rfl | rfl | rfl | rfl | rfl | rfl | rfl <;> assumption

/-- The flags `setNZ8` writes. -/
@[simp] theorem flag_setNZ8 (f : Flag) (r p : Byte) :
    flag f (setNZ8 r p) = if f = .z then r == 0 else if f = .n then r.msb else flag f p := by
  simp [setNZ8]

/-- The flags `setNZ16` writes. -/
@[simp] theorem flag_setNZ16 (f : Flag) (r : Word) (p : Byte) :
    flag f (setNZ16 r p) = if f = .z then r == 0 else if f = .n then r.msb else flag f p := by
  simp [setNZ16]

/-! ## The parameters with a default, where no value is supplied -/

theorem daaFunction_default (h : Config.daaFn = none) : daaFunction = daaAdjust := by simp [daaFunction, h]

theorem dasFunction_default (h : Config.dasFn = none) : dasFunction = dasAdjust := by simp [dasFunction, h]

theorem brkPushedB_default (h : Config.brkPushedB = none) : brkPushedB = true := by simp [brkPushedB, h]

theorem flaggedTransfer_default (h : Config.txaTxspFlags = none) : flaggedTransfer = .txa := by
  simp [flaggedTransfer, h]

/-- Only the flagged transfer writes flags. -/
theorem transferFlags_other {t : FlaggedTransfer} (h : flaggedTransfer ≠ t) (v psw : Byte) :
    transferFlags t v psw = psw := by simp [transferFlags, h]

/-- The flagged transfer writes N and Z. -/
theorem transferFlags_same {t : FlaggedTransfer} (h : flaggedTransfer = t) (v psw : Byte) :
    transferFlags t v psw = setNZ8 v psw := by simp [transferFlags, h]

end Sys2Proof.Machine
end

