-- ==== Sys2Proof/Laws/Memory.lean ====
section
/-! SUPPORT. Memory as a map: reads after writes, and the canonical form kept. -/

namespace Sys2Proof.Machine

/-- A read after a write to the same address. -/
@[simp] theorem Memory.read_write_same (m : Memory) (k : Nat) (v : Byte) :
    Memory.read (Memory.write m k v) k = some v := by
  induction m with
  | nil => simp [Memory.write, Memory.read]
  | cons c rest ih =>
    obtain ⟨a, w⟩ := c
    simp only [Memory.write]
    split
    · simp [Memory.read]
    · split
      · simp [Memory.read]
      · simp [Memory.read, ih, Ne.symm ‹¬k = a›]

/-- A read after a write to another address. -/
theorem Memory.read_write_other (m : Memory) {j k : Nat} (v : Byte) (h : j ≠ k) :
    Memory.read (Memory.write m k v) j = Memory.read m j := by
  induction m with
  | nil => simp [Memory.write, Memory.read, Ne.symm h]
  | cons c rest ih =>
    obtain ⟨a, w⟩ := c
    simp only [Memory.write]
    split
    · simp [Memory.read, Ne.symm h]
    · split
      · simp [Memory.read, Ne.symm h, show ¬a = j by omega]
      · simp [Memory.read, ih]

/-- The addresses rise from any lower bound. -/
theorem Memory.risingFrom_mono {lo lo' : Nat} {m : Memory} (h : lo' ≤ lo) (hm : Memory.risingFrom lo m = true) :
    Memory.risingFrom lo' m = true := by
  cases m with
  | nil => rfl
  | cons c rest =>
    obtain ⟨a, v⟩ := c
    simp only [Memory.risingFrom, Bool.and_eq_true, decide_eq_true_eq] at *
    exact ⟨⟨by omega, hm.1.2⟩, hm.2⟩

/-- A write keeps the form above a bound. -/
theorem Memory.risingFrom_write {lo k : Nat} {m : Memory} (v : Byte) (hk : lo ≤ k) (hk' : k < 0x10000)
    (hm : Memory.risingFrom lo m = true) : Memory.risingFrom lo (Memory.write m k v) = true := by
  induction m generalizing lo with
  | nil => simp [Memory.write, Memory.risingFrom, hk, hk']
  | cons c rest ih =>
    obtain ⟨a, w⟩ := c
    simp only [Memory.risingFrom, Bool.and_eq_true, decide_eq_true_eq] at hm
    simp only [Memory.write]
    split
    · simp only [Memory.risingFrom, Bool.and_eq_true, decide_eq_true_eq]
      exact ⟨⟨hk, hk'⟩, ⟨by omega, hm.1.2⟩, hm.2⟩
    · split
      · simp only [Memory.risingFrom, Bool.and_eq_true, decide_eq_true_eq]
        exact ⟨⟨hk, hk'⟩, by rw [‹k = a›]; exact hm.2⟩
      · simp only [Memory.risingFrom, Bool.and_eq_true, decide_eq_true_eq]
        exact ⟨hm.1, ih (by omega) hm.2⟩

/-- A write of a 16-bit address keeps the canonical form. -/
theorem Memory.wf_write {m : Memory} {k : Nat} (v : Byte) (hk : k < 0x10000) (hm : Memory.wf m = true) :
    Memory.wf (Memory.write m k v) = true := Memory.risingFrom_write v (Nat.zero_le _) hk hm

/-- Forgetting the low addresses keeps the canonical form. -/
theorem Memory.risingFrom_dropBelow {lo k : Nat} {m : Memory} (hm : Memory.risingFrom lo m = true) :
    Memory.risingFrom lo (Memory.dropBelow m k) = true := by
  induction m generalizing lo with
  | nil => rfl
  | cons c rest ih =>
    obtain ⟨a, v⟩ := c
    simp only [Memory.dropBelow]
    split
    · simp only [Memory.risingFrom, Bool.and_eq_true, decide_eq_true_eq] at hm
      exact ih (Memory.risingFrom_mono (by omega) hm.2)
    · exact hm

/-- Forgetting the low addresses keeps the canonical form. -/
theorem Memory.wf_dropBelow {m : Memory} (k : Nat) (hm : Memory.wf m = true) :
    Memory.wf (Memory.dropBelow m k) = true := Memory.risingFrom_dropBelow hm

/-- Forgetting the low addresses leaves the others as they were. -/
theorem Memory.read_dropBelow (m : Memory) {j k : Nat} (h : k ≤ j) :
    Memory.read (Memory.dropBelow m k) j = Memory.read m j := by
  induction m with
  | nil => rfl
  | cons c rest ih =>
    obtain ⟨a, v⟩ := c
    simp only [Memory.dropBelow]
    split
    · simp [Memory.read, ih, show ¬a = j by omega]
    · rfl

/-- The torn bytes of a reset keep the canonical form. -/
theorem writeTorn_wf (torn : Torn) (m : Memory) (hm : Memory.wf m = true) : Memory.wf (writeTorn torn m) = true := by
  induction torn generalizing m with
  | nil => exact hm
  | cons c rest ih =>
    obtain ⟨a, v⟩ := c
    exact ih _ (Memory.wf_write v (by have := a.isLt; omega) hm)

/-- The torn bytes of a reset are RAM bytes. -/
theorem writeTorn_read (torn : Torn) (m : Memory) {j : Nat} (hj : 0x80 ≤ j) :
    Memory.read (writeTorn torn m) j = Memory.read m j := by
  induction torn generalizing m with
  | nil => rfl
  | cons c rest ih =>
    obtain ⟨a, v⟩ := c
    simp only [writeTorn]
    rw [ih, Memory.read_write_other]
    have := a.isLt
    omega

/-- A reset keeps the canonical form. -/
theorem resetMemory_wf (cause : ResetCause) (torn : Torn) (m : Memory) (hm : Memory.wf m = true) :
    Memory.wf (resetMemory cause torn m) = true := by
  cases cause <;> first | exact Memory.wf_dropBelow _ hm | exact writeTorn_wf _ _ hm

/-- A reset leaves the program memory as it was. -/
theorem resetMemory_read (cause : ResetCause) (torn : Torn) (m : Memory) {j : Nat} (hj : 0x80 ≤ j) :
    Memory.read (resetMemory cause torn m) j = Memory.read m j := by
  cases cause <;> first | exact Memory.read_dropBelow _ hj | exact writeTorn_read _ _ hj

end Sys2Proof.Machine
end

