-- ==== Sys2Proof/Laws/State.lean ====
section
/-! SUPPORT. One lemma per field of State for each named update, and the laws of the results of operations. -/

namespace Sys2Proof.Machine

@[simp] theorem State.withPsw_a (s : State) (v : Byte) : (s.withPsw v).a = s.a := rfl
@[simp] theorem State.withPsw_x (s : State) (v : Byte) : (s.withPsw v).x = s.x := rfl
@[simp] theorem State.withPsw_y (s : State) (v : Byte) : (s.withPsw v).y = s.y := rfl
@[simp] theorem State.withPsw_sp (s : State) (v : Byte) : (s.withPsw v).sp = s.sp := rfl
@[simp] theorem State.withPsw_psw (s : State) (v : Byte) : (s.withPsw v).psw = v := rfl
@[simp] theorem State.withPsw_pc (s : State) (v : Byte) : (s.withPsw v).pc = s.pc := rfl
@[simp] theorem State.withPsw_mem (s : State) (v : Byte) : (s.withPsw v).mem = s.mem := rfl
@[simp] theorem State.withPsw_ports (s : State) (v : Byte) : (s.withPsw v).ports = s.ports := rfl
@[simp] theorem State.withPsw_timers (s : State) (v : Byte) : (s.withPsw v).timers = s.timers := rfl
@[simp] theorem State.withPsw_irq (s : State) (v : Byte) : (s.withPsw v).irq = s.irq := rfl
@[simp] theorem State.withPsw_clock (s : State) (v : Byte) : (s.withPsw v).clock = s.clock := rfl
@[simp] theorem State.withPsw_buzzer (s : State) (v : Byte) : (s.withPsw v).buzzer = s.buzzer := rfl
@[simp] theorem State.withPsw_adc (s : State) (v : Byte) : (s.withPsw v).adc = s.adc := rfl
@[simp] theorem State.withPsw_power (s : State) (v : Byte) : (s.withPsw v).power = s.power := rfl
@[simp] theorem State.withPsw_mode (s : State) (v : Byte) : (s.withPsw v).mode = s.mode := rfl
@[simp] theorem State.withPsw_device (s : State) (v : Byte) : (s.withPsw v).device = s.device := rfl
@[simp] theorem State.withPsw_options (s : State) (v : Byte) : (s.withPsw v).options = s.options := rfl
@[simp] theorem State.withPsw_bootPending (s : State) (v : Byte) : (s.withPsw v).bootPending = s.bootPending := rfl
@[simp] theorem State.withPsw_schedule (s : State) (v : Byte) : (s.withPsw v).schedule = s.schedule := rfl
@[simp] theorem State.withPsw_midEvents (s : State) (v : Byte) : (s.withPsw v).midEvents = s.midEvents := rfl
@[simp] theorem State.withPsw_powerCycle (s : State) (v : Byte) : (s.withPsw v).powerCycle = s.powerCycle := rfl
@[simp] theorem State.withPsw_draws (s : State) (v : Byte) : (s.withPsw v).draws = s.draws := rfl

@[simp] theorem State.withPc_a (s : State) (v : Word) : (s.withPc v).a = s.a := rfl
@[simp] theorem State.withPc_x (s : State) (v : Word) : (s.withPc v).x = s.x := rfl
@[simp] theorem State.withPc_y (s : State) (v : Word) : (s.withPc v).y = s.y := rfl
@[simp] theorem State.withPc_sp (s : State) (v : Word) : (s.withPc v).sp = s.sp := rfl
@[simp] theorem State.withPc_psw (s : State) (v : Word) : (s.withPc v).psw = s.psw := rfl
@[simp] theorem State.withPc_pc (s : State) (v : Word) : (s.withPc v).pc = v := rfl
@[simp] theorem State.withPc_mem (s : State) (v : Word) : (s.withPc v).mem = s.mem := rfl
@[simp] theorem State.withPc_ports (s : State) (v : Word) : (s.withPc v).ports = s.ports := rfl
@[simp] theorem State.withPc_timers (s : State) (v : Word) : (s.withPc v).timers = s.timers := rfl
@[simp] theorem State.withPc_irq (s : State) (v : Word) : (s.withPc v).irq = s.irq := rfl
@[simp] theorem State.withPc_clock (s : State) (v : Word) : (s.withPc v).clock = s.clock := rfl
@[simp] theorem State.withPc_buzzer (s : State) (v : Word) : (s.withPc v).buzzer = s.buzzer := rfl
@[simp] theorem State.withPc_adc (s : State) (v : Word) : (s.withPc v).adc = s.adc := rfl
@[simp] theorem State.withPc_power (s : State) (v : Word) : (s.withPc v).power = s.power := rfl
@[simp] theorem State.withPc_mode (s : State) (v : Word) : (s.withPc v).mode = s.mode := rfl
@[simp] theorem State.withPc_device (s : State) (v : Word) : (s.withPc v).device = s.device := rfl
@[simp] theorem State.withPc_options (s : State) (v : Word) : (s.withPc v).options = s.options := rfl
@[simp] theorem State.withPc_bootPending (s : State) (v : Word) : (s.withPc v).bootPending = s.bootPending := rfl
@[simp] theorem State.withPc_schedule (s : State) (v : Word) : (s.withPc v).schedule = s.schedule := rfl
@[simp] theorem State.withPc_midEvents (s : State) (v : Word) : (s.withPc v).midEvents = s.midEvents := rfl
@[simp] theorem State.withPc_powerCycle (s : State) (v : Word) : (s.withPc v).powerCycle = s.powerCycle := rfl
@[simp] theorem State.withPc_draws (s : State) (v : Word) : (s.withPc v).draws = s.draws := rfl

@[simp] theorem State.withSp_a (s : State) (v : Byte) : (s.withSp v).a = s.a := rfl
@[simp] theorem State.withSp_x (s : State) (v : Byte) : (s.withSp v).x = s.x := rfl
@[simp] theorem State.withSp_y (s : State) (v : Byte) : (s.withSp v).y = s.y := rfl
@[simp] theorem State.withSp_sp (s : State) (v : Byte) : (s.withSp v).sp = v := rfl
@[simp] theorem State.withSp_psw (s : State) (v : Byte) : (s.withSp v).psw = s.psw := rfl
@[simp] theorem State.withSp_pc (s : State) (v : Byte) : (s.withSp v).pc = s.pc := rfl
@[simp] theorem State.withSp_mem (s : State) (v : Byte) : (s.withSp v).mem = s.mem := rfl
@[simp] theorem State.withSp_ports (s : State) (v : Byte) : (s.withSp v).ports = s.ports := rfl
@[simp] theorem State.withSp_timers (s : State) (v : Byte) : (s.withSp v).timers = s.timers := rfl
@[simp] theorem State.withSp_irq (s : State) (v : Byte) : (s.withSp v).irq = s.irq := rfl
@[simp] theorem State.withSp_clock (s : State) (v : Byte) : (s.withSp v).clock = s.clock := rfl
@[simp] theorem State.withSp_buzzer (s : State) (v : Byte) : (s.withSp v).buzzer = s.buzzer := rfl
@[simp] theorem State.withSp_adc (s : State) (v : Byte) : (s.withSp v).adc = s.adc := rfl
@[simp] theorem State.withSp_power (s : State) (v : Byte) : (s.withSp v).power = s.power := rfl
@[simp] theorem State.withSp_mode (s : State) (v : Byte) : (s.withSp v).mode = s.mode := rfl
@[simp] theorem State.withSp_device (s : State) (v : Byte) : (s.withSp v).device = s.device := rfl
@[simp] theorem State.withSp_options (s : State) (v : Byte) : (s.withSp v).options = s.options := rfl
@[simp] theorem State.withSp_bootPending (s : State) (v : Byte) : (s.withSp v).bootPending = s.bootPending := rfl
@[simp] theorem State.withSp_schedule (s : State) (v : Byte) : (s.withSp v).schedule = s.schedule := rfl
@[simp] theorem State.withSp_midEvents (s : State) (v : Byte) : (s.withSp v).midEvents = s.midEvents := rfl
@[simp] theorem State.withSp_powerCycle (s : State) (v : Byte) : (s.withSp v).powerCycle = s.powerCycle := rfl
@[simp] theorem State.withSp_draws (s : State) (v : Byte) : (s.withSp v).draws = s.draws := rfl

@[simp] theorem State.withMem_a (s : State) (v : Memory) : (s.withMem v).a = s.a := rfl
@[simp] theorem State.withMem_x (s : State) (v : Memory) : (s.withMem v).x = s.x := rfl
@[simp] theorem State.withMem_y (s : State) (v : Memory) : (s.withMem v).y = s.y := rfl
@[simp] theorem State.withMem_sp (s : State) (v : Memory) : (s.withMem v).sp = s.sp := rfl
@[simp] theorem State.withMem_psw (s : State) (v : Memory) : (s.withMem v).psw = s.psw := rfl
@[simp] theorem State.withMem_pc (s : State) (v : Memory) : (s.withMem v).pc = s.pc := rfl
@[simp] theorem State.withMem_mem (s : State) (v : Memory) : (s.withMem v).mem = v := rfl
@[simp] theorem State.withMem_ports (s : State) (v : Memory) : (s.withMem v).ports = s.ports := rfl
@[simp] theorem State.withMem_timers (s : State) (v : Memory) : (s.withMem v).timers = s.timers := rfl
@[simp] theorem State.withMem_irq (s : State) (v : Memory) : (s.withMem v).irq = s.irq := rfl
@[simp] theorem State.withMem_clock (s : State) (v : Memory) : (s.withMem v).clock = s.clock := rfl
@[simp] theorem State.withMem_buzzer (s : State) (v : Memory) : (s.withMem v).buzzer = s.buzzer := rfl
@[simp] theorem State.withMem_adc (s : State) (v : Memory) : (s.withMem v).adc = s.adc := rfl
@[simp] theorem State.withMem_power (s : State) (v : Memory) : (s.withMem v).power = s.power := rfl
@[simp] theorem State.withMem_mode (s : State) (v : Memory) : (s.withMem v).mode = s.mode := rfl
@[simp] theorem State.withMem_device (s : State) (v : Memory) : (s.withMem v).device = s.device := rfl
@[simp] theorem State.withMem_options (s : State) (v : Memory) : (s.withMem v).options = s.options := rfl
@[simp] theorem State.withMem_bootPending (s : State) (v : Memory) : (s.withMem v).bootPending = s.bootPending := rfl
@[simp] theorem State.withMem_schedule (s : State) (v : Memory) : (s.withMem v).schedule = s.schedule := rfl
@[simp] theorem State.withMem_midEvents (s : State) (v : Memory) : (s.withMem v).midEvents = s.midEvents := rfl
@[simp] theorem State.withMem_powerCycle (s : State) (v : Memory) : (s.withMem v).powerCycle = s.powerCycle := rfl
@[simp] theorem State.withMem_draws (s : State) (v : Memory) : (s.withMem v).draws = s.draws := rfl

@[simp] theorem State.withPorts_a (s : State) (v : Ports) : (s.withPorts v).a = s.a := rfl
@[simp] theorem State.withPorts_x (s : State) (v : Ports) : (s.withPorts v).x = s.x := rfl
@[simp] theorem State.withPorts_y (s : State) (v : Ports) : (s.withPorts v).y = s.y := rfl
@[simp] theorem State.withPorts_sp (s : State) (v : Ports) : (s.withPorts v).sp = s.sp := rfl
@[simp] theorem State.withPorts_psw (s : State) (v : Ports) : (s.withPorts v).psw = s.psw := rfl
@[simp] theorem State.withPorts_pc (s : State) (v : Ports) : (s.withPorts v).pc = s.pc := rfl
@[simp] theorem State.withPorts_mem (s : State) (v : Ports) : (s.withPorts v).mem = s.mem := rfl
@[simp] theorem State.withPorts_ports (s : State) (v : Ports) : (s.withPorts v).ports = v := rfl
@[simp] theorem State.withPorts_timers (s : State) (v : Ports) : (s.withPorts v).timers = s.timers := rfl
@[simp] theorem State.withPorts_irq (s : State) (v : Ports) : (s.withPorts v).irq = s.irq := rfl
@[simp] theorem State.withPorts_clock (s : State) (v : Ports) : (s.withPorts v).clock = s.clock := rfl
@[simp] theorem State.withPorts_buzzer (s : State) (v : Ports) : (s.withPorts v).buzzer = s.buzzer := rfl
@[simp] theorem State.withPorts_adc (s : State) (v : Ports) : (s.withPorts v).adc = s.adc := rfl
@[simp] theorem State.withPorts_power (s : State) (v : Ports) : (s.withPorts v).power = s.power := rfl
@[simp] theorem State.withPorts_mode (s : State) (v : Ports) : (s.withPorts v).mode = s.mode := rfl
@[simp] theorem State.withPorts_device (s : State) (v : Ports) : (s.withPorts v).device = s.device := rfl
@[simp] theorem State.withPorts_options (s : State) (v : Ports) : (s.withPorts v).options = s.options := rfl
@[simp] theorem State.withPorts_bootPending (s : State) (v : Ports) : (s.withPorts v).bootPending = s.bootPending := rfl
@[simp] theorem State.withPorts_schedule (s : State) (v : Ports) : (s.withPorts v).schedule = s.schedule := rfl
@[simp] theorem State.withPorts_midEvents (s : State) (v : Ports) : (s.withPorts v).midEvents = s.midEvents := rfl
@[simp] theorem State.withPorts_powerCycle (s : State) (v : Ports) : (s.withPorts v).powerCycle = s.powerCycle := rfl
@[simp] theorem State.withPorts_draws (s : State) (v : Ports) : (s.withPorts v).draws = s.draws := rfl

@[simp] theorem State.withTimers_a (s : State) (v : Timers) : (s.withTimers v).a = s.a := rfl
@[simp] theorem State.withTimers_x (s : State) (v : Timers) : (s.withTimers v).x = s.x := rfl
@[simp] theorem State.withTimers_y (s : State) (v : Timers) : (s.withTimers v).y = s.y := rfl
@[simp] theorem State.withTimers_sp (s : State) (v : Timers) : (s.withTimers v).sp = s.sp := rfl
@[simp] theorem State.withTimers_psw (s : State) (v : Timers) : (s.withTimers v).psw = s.psw := rfl
@[simp] theorem State.withTimers_pc (s : State) (v : Timers) : (s.withTimers v).pc = s.pc := rfl
@[simp] theorem State.withTimers_mem (s : State) (v : Timers) : (s.withTimers v).mem = s.mem := rfl
@[simp] theorem State.withTimers_ports (s : State) (v : Timers) : (s.withTimers v).ports = s.ports := rfl
@[simp] theorem State.withTimers_timers (s : State) (v : Timers) : (s.withTimers v).timers = v := rfl
@[simp] theorem State.withTimers_irq (s : State) (v : Timers) : (s.withTimers v).irq = s.irq := rfl
@[simp] theorem State.withTimers_clock (s : State) (v : Timers) : (s.withTimers v).clock = s.clock := rfl
@[simp] theorem State.withTimers_buzzer (s : State) (v : Timers) : (s.withTimers v).buzzer = s.buzzer := rfl
@[simp] theorem State.withTimers_adc (s : State) (v : Timers) : (s.withTimers v).adc = s.adc := rfl
@[simp] theorem State.withTimers_power (s : State) (v : Timers) : (s.withTimers v).power = s.power := rfl
@[simp] theorem State.withTimers_mode (s : State) (v : Timers) : (s.withTimers v).mode = s.mode := rfl
@[simp] theorem State.withTimers_device (s : State) (v : Timers) : (s.withTimers v).device = s.device := rfl
@[simp] theorem State.withTimers_options (s : State) (v : Timers) : (s.withTimers v).options = s.options := rfl
@[simp] theorem State.withTimers_bootPending (s : State) (v : Timers) : (s.withTimers v).bootPending = s.bootPending := rfl
@[simp] theorem State.withTimers_schedule (s : State) (v : Timers) : (s.withTimers v).schedule = s.schedule := rfl
@[simp] theorem State.withTimers_midEvents (s : State) (v : Timers) : (s.withTimers v).midEvents = s.midEvents := rfl
@[simp] theorem State.withTimers_powerCycle (s : State) (v : Timers) : (s.withTimers v).powerCycle = s.powerCycle := rfl
@[simp] theorem State.withTimers_draws (s : State) (v : Timers) : (s.withTimers v).draws = s.draws := rfl

@[simp] theorem State.withIrq_a (s : State) (v : Interrupts) : (s.withIrq v).a = s.a := rfl
@[simp] theorem State.withIrq_x (s : State) (v : Interrupts) : (s.withIrq v).x = s.x := rfl
@[simp] theorem State.withIrq_y (s : State) (v : Interrupts) : (s.withIrq v).y = s.y := rfl
@[simp] theorem State.withIrq_sp (s : State) (v : Interrupts) : (s.withIrq v).sp = s.sp := rfl
@[simp] theorem State.withIrq_psw (s : State) (v : Interrupts) : (s.withIrq v).psw = s.psw := rfl
@[simp] theorem State.withIrq_pc (s : State) (v : Interrupts) : (s.withIrq v).pc = s.pc := rfl
@[simp] theorem State.withIrq_mem (s : State) (v : Interrupts) : (s.withIrq v).mem = s.mem := rfl
@[simp] theorem State.withIrq_ports (s : State) (v : Interrupts) : (s.withIrq v).ports = s.ports := rfl
@[simp] theorem State.withIrq_timers (s : State) (v : Interrupts) : (s.withIrq v).timers = s.timers := rfl
@[simp] theorem State.withIrq_irq (s : State) (v : Interrupts) : (s.withIrq v).irq = v := rfl
@[simp] theorem State.withIrq_clock (s : State) (v : Interrupts) : (s.withIrq v).clock = s.clock := rfl
@[simp] theorem State.withIrq_buzzer (s : State) (v : Interrupts) : (s.withIrq v).buzzer = s.buzzer := rfl
@[simp] theorem State.withIrq_adc (s : State) (v : Interrupts) : (s.withIrq v).adc = s.adc := rfl
@[simp] theorem State.withIrq_power (s : State) (v : Interrupts) : (s.withIrq v).power = s.power := rfl
@[simp] theorem State.withIrq_mode (s : State) (v : Interrupts) : (s.withIrq v).mode = s.mode := rfl
@[simp] theorem State.withIrq_device (s : State) (v : Interrupts) : (s.withIrq v).device = s.device := rfl
@[simp] theorem State.withIrq_options (s : State) (v : Interrupts) : (s.withIrq v).options = s.options := rfl
@[simp] theorem State.withIrq_bootPending (s : State) (v : Interrupts) : (s.withIrq v).bootPending = s.bootPending := rfl
@[simp] theorem State.withIrq_schedule (s : State) (v : Interrupts) : (s.withIrq v).schedule = s.schedule := rfl
@[simp] theorem State.withIrq_midEvents (s : State) (v : Interrupts) : (s.withIrq v).midEvents = s.midEvents := rfl
@[simp] theorem State.withIrq_powerCycle (s : State) (v : Interrupts) : (s.withIrq v).powerCycle = s.powerCycle := rfl
@[simp] theorem State.withIrq_draws (s : State) (v : Interrupts) : (s.withIrq v).draws = s.draws := rfl

@[simp] theorem State.withClock_a (s : State) (v : ClockUnit) : (s.withClock v).a = s.a := rfl
@[simp] theorem State.withClock_x (s : State) (v : ClockUnit) : (s.withClock v).x = s.x := rfl
@[simp] theorem State.withClock_y (s : State) (v : ClockUnit) : (s.withClock v).y = s.y := rfl
@[simp] theorem State.withClock_sp (s : State) (v : ClockUnit) : (s.withClock v).sp = s.sp := rfl
@[simp] theorem State.withClock_psw (s : State) (v : ClockUnit) : (s.withClock v).psw = s.psw := rfl
@[simp] theorem State.withClock_pc (s : State) (v : ClockUnit) : (s.withClock v).pc = s.pc := rfl
@[simp] theorem State.withClock_mem (s : State) (v : ClockUnit) : (s.withClock v).mem = s.mem := rfl
@[simp] theorem State.withClock_ports (s : State) (v : ClockUnit) : (s.withClock v).ports = s.ports := rfl
@[simp] theorem State.withClock_timers (s : State) (v : ClockUnit) : (s.withClock v).timers = s.timers := rfl
@[simp] theorem State.withClock_irq (s : State) (v : ClockUnit) : (s.withClock v).irq = s.irq := rfl
@[simp] theorem State.withClock_clock (s : State) (v : ClockUnit) : (s.withClock v).clock = v := rfl
@[simp] theorem State.withClock_buzzer (s : State) (v : ClockUnit) : (s.withClock v).buzzer = s.buzzer := rfl
@[simp] theorem State.withClock_adc (s : State) (v : ClockUnit) : (s.withClock v).adc = s.adc := rfl
@[simp] theorem State.withClock_power (s : State) (v : ClockUnit) : (s.withClock v).power = s.power := rfl
@[simp] theorem State.withClock_mode (s : State) (v : ClockUnit) : (s.withClock v).mode = s.mode := rfl
@[simp] theorem State.withClock_device (s : State) (v : ClockUnit) : (s.withClock v).device = s.device := rfl
@[simp] theorem State.withClock_options (s : State) (v : ClockUnit) : (s.withClock v).options = s.options := rfl
@[simp] theorem State.withClock_bootPending (s : State) (v : ClockUnit) : (s.withClock v).bootPending = s.bootPending := rfl
@[simp] theorem State.withClock_schedule (s : State) (v : ClockUnit) : (s.withClock v).schedule = s.schedule := rfl
@[simp] theorem State.withClock_midEvents (s : State) (v : ClockUnit) : (s.withClock v).midEvents = s.midEvents := rfl
@[simp] theorem State.withClock_powerCycle (s : State) (v : ClockUnit) : (s.withClock v).powerCycle = s.powerCycle := rfl
@[simp] theorem State.withClock_draws (s : State) (v : ClockUnit) : (s.withClock v).draws = s.draws := rfl

@[simp] theorem State.withBuzzer_a (s : State) (v : Buzzer) : (s.withBuzzer v).a = s.a := rfl
@[simp] theorem State.withBuzzer_x (s : State) (v : Buzzer) : (s.withBuzzer v).x = s.x := rfl
@[simp] theorem State.withBuzzer_y (s : State) (v : Buzzer) : (s.withBuzzer v).y = s.y := rfl
@[simp] theorem State.withBuzzer_sp (s : State) (v : Buzzer) : (s.withBuzzer v).sp = s.sp := rfl
@[simp] theorem State.withBuzzer_psw (s : State) (v : Buzzer) : (s.withBuzzer v).psw = s.psw := rfl
@[simp] theorem State.withBuzzer_pc (s : State) (v : Buzzer) : (s.withBuzzer v).pc = s.pc := rfl
@[simp] theorem State.withBuzzer_mem (s : State) (v : Buzzer) : (s.withBuzzer v).mem = s.mem := rfl
@[simp] theorem State.withBuzzer_ports (s : State) (v : Buzzer) : (s.withBuzzer v).ports = s.ports := rfl
@[simp] theorem State.withBuzzer_timers (s : State) (v : Buzzer) : (s.withBuzzer v).timers = s.timers := rfl
@[simp] theorem State.withBuzzer_irq (s : State) (v : Buzzer) : (s.withBuzzer v).irq = s.irq := rfl
@[simp] theorem State.withBuzzer_clock (s : State) (v : Buzzer) : (s.withBuzzer v).clock = s.clock := rfl
@[simp] theorem State.withBuzzer_buzzer (s : State) (v : Buzzer) : (s.withBuzzer v).buzzer = v := rfl
@[simp] theorem State.withBuzzer_adc (s : State) (v : Buzzer) : (s.withBuzzer v).adc = s.adc := rfl
@[simp] theorem State.withBuzzer_power (s : State) (v : Buzzer) : (s.withBuzzer v).power = s.power := rfl
@[simp] theorem State.withBuzzer_mode (s : State) (v : Buzzer) : (s.withBuzzer v).mode = s.mode := rfl
@[simp] theorem State.withBuzzer_device (s : State) (v : Buzzer) : (s.withBuzzer v).device = s.device := rfl
@[simp] theorem State.withBuzzer_options (s : State) (v : Buzzer) : (s.withBuzzer v).options = s.options := rfl
@[simp] theorem State.withBuzzer_bootPending (s : State) (v : Buzzer) : (s.withBuzzer v).bootPending = s.bootPending := rfl
@[simp] theorem State.withBuzzer_schedule (s : State) (v : Buzzer) : (s.withBuzzer v).schedule = s.schedule := rfl
@[simp] theorem State.withBuzzer_midEvents (s : State) (v : Buzzer) : (s.withBuzzer v).midEvents = s.midEvents := rfl
@[simp] theorem State.withBuzzer_powerCycle (s : State) (v : Buzzer) : (s.withBuzzer v).powerCycle = s.powerCycle := rfl
@[simp] theorem State.withBuzzer_draws (s : State) (v : Buzzer) : (s.withBuzzer v).draws = s.draws := rfl

@[simp] theorem State.withAdc_a (s : State) (v : Adc) : (s.withAdc v).a = s.a := rfl
@[simp] theorem State.withAdc_x (s : State) (v : Adc) : (s.withAdc v).x = s.x := rfl
@[simp] theorem State.withAdc_y (s : State) (v : Adc) : (s.withAdc v).y = s.y := rfl
@[simp] theorem State.withAdc_sp (s : State) (v : Adc) : (s.withAdc v).sp = s.sp := rfl
@[simp] theorem State.withAdc_psw (s : State) (v : Adc) : (s.withAdc v).psw = s.psw := rfl
@[simp] theorem State.withAdc_pc (s : State) (v : Adc) : (s.withAdc v).pc = s.pc := rfl
@[simp] theorem State.withAdc_mem (s : State) (v : Adc) : (s.withAdc v).mem = s.mem := rfl
@[simp] theorem State.withAdc_ports (s : State) (v : Adc) : (s.withAdc v).ports = s.ports := rfl
@[simp] theorem State.withAdc_timers (s : State) (v : Adc) : (s.withAdc v).timers = s.timers := rfl
@[simp] theorem State.withAdc_irq (s : State) (v : Adc) : (s.withAdc v).irq = s.irq := rfl
@[simp] theorem State.withAdc_clock (s : State) (v : Adc) : (s.withAdc v).clock = s.clock := rfl
@[simp] theorem State.withAdc_buzzer (s : State) (v : Adc) : (s.withAdc v).buzzer = s.buzzer := rfl
@[simp] theorem State.withAdc_adc (s : State) (v : Adc) : (s.withAdc v).adc = v := rfl
@[simp] theorem State.withAdc_power (s : State) (v : Adc) : (s.withAdc v).power = s.power := rfl
@[simp] theorem State.withAdc_mode (s : State) (v : Adc) : (s.withAdc v).mode = s.mode := rfl
@[simp] theorem State.withAdc_device (s : State) (v : Adc) : (s.withAdc v).device = s.device := rfl
@[simp] theorem State.withAdc_options (s : State) (v : Adc) : (s.withAdc v).options = s.options := rfl
@[simp] theorem State.withAdc_bootPending (s : State) (v : Adc) : (s.withAdc v).bootPending = s.bootPending := rfl
@[simp] theorem State.withAdc_schedule (s : State) (v : Adc) : (s.withAdc v).schedule = s.schedule := rfl
@[simp] theorem State.withAdc_midEvents (s : State) (v : Adc) : (s.withAdc v).midEvents = s.midEvents := rfl
@[simp] theorem State.withAdc_powerCycle (s : State) (v : Adc) : (s.withAdc v).powerCycle = s.powerCycle := rfl
@[simp] theorem State.withAdc_draws (s : State) (v : Adc) : (s.withAdc v).draws = s.draws := rfl

@[simp] theorem State.withPower_a (s : State) (v : PowerFail) : (s.withPower v).a = s.a := rfl
@[simp] theorem State.withPower_x (s : State) (v : PowerFail) : (s.withPower v).x = s.x := rfl
@[simp] theorem State.withPower_y (s : State) (v : PowerFail) : (s.withPower v).y = s.y := rfl
@[simp] theorem State.withPower_sp (s : State) (v : PowerFail) : (s.withPower v).sp = s.sp := rfl
@[simp] theorem State.withPower_psw (s : State) (v : PowerFail) : (s.withPower v).psw = s.psw := rfl
@[simp] theorem State.withPower_pc (s : State) (v : PowerFail) : (s.withPower v).pc = s.pc := rfl
@[simp] theorem State.withPower_mem (s : State) (v : PowerFail) : (s.withPower v).mem = s.mem := rfl
@[simp] theorem State.withPower_ports (s : State) (v : PowerFail) : (s.withPower v).ports = s.ports := rfl
@[simp] theorem State.withPower_timers (s : State) (v : PowerFail) : (s.withPower v).timers = s.timers := rfl
@[simp] theorem State.withPower_irq (s : State) (v : PowerFail) : (s.withPower v).irq = s.irq := rfl
@[simp] theorem State.withPower_clock (s : State) (v : PowerFail) : (s.withPower v).clock = s.clock := rfl
@[simp] theorem State.withPower_buzzer (s : State) (v : PowerFail) : (s.withPower v).buzzer = s.buzzer := rfl
@[simp] theorem State.withPower_adc (s : State) (v : PowerFail) : (s.withPower v).adc = s.adc := rfl
@[simp] theorem State.withPower_power (s : State) (v : PowerFail) : (s.withPower v).power = v := rfl
@[simp] theorem State.withPower_mode (s : State) (v : PowerFail) : (s.withPower v).mode = s.mode := rfl
@[simp] theorem State.withPower_device (s : State) (v : PowerFail) : (s.withPower v).device = s.device := rfl
@[simp] theorem State.withPower_options (s : State) (v : PowerFail) : (s.withPower v).options = s.options := rfl
@[simp] theorem State.withPower_bootPending (s : State) (v : PowerFail) : (s.withPower v).bootPending = s.bootPending := rfl
@[simp] theorem State.withPower_schedule (s : State) (v : PowerFail) : (s.withPower v).schedule = s.schedule := rfl
@[simp] theorem State.withPower_midEvents (s : State) (v : PowerFail) : (s.withPower v).midEvents = s.midEvents := rfl
@[simp] theorem State.withPower_powerCycle (s : State) (v : PowerFail) : (s.withPower v).powerCycle = s.powerCycle := rfl
@[simp] theorem State.withPower_draws (s : State) (v : PowerFail) : (s.withPower v).draws = s.draws := rfl

@[simp] theorem State.withMode_a (s : State) (v : Mode) : (s.withMode v).a = s.a := rfl
@[simp] theorem State.withMode_x (s : State) (v : Mode) : (s.withMode v).x = s.x := rfl
@[simp] theorem State.withMode_y (s : State) (v : Mode) : (s.withMode v).y = s.y := rfl
@[simp] theorem State.withMode_sp (s : State) (v : Mode) : (s.withMode v).sp = s.sp := rfl
@[simp] theorem State.withMode_psw (s : State) (v : Mode) : (s.withMode v).psw = s.psw := rfl
@[simp] theorem State.withMode_pc (s : State) (v : Mode) : (s.withMode v).pc = s.pc := rfl
@[simp] theorem State.withMode_mem (s : State) (v : Mode) : (s.withMode v).mem = s.mem := rfl
@[simp] theorem State.withMode_ports (s : State) (v : Mode) : (s.withMode v).ports = s.ports := rfl
@[simp] theorem State.withMode_timers (s : State) (v : Mode) : (s.withMode v).timers = s.timers := rfl
@[simp] theorem State.withMode_irq (s : State) (v : Mode) : (s.withMode v).irq = s.irq := rfl
@[simp] theorem State.withMode_clock (s : State) (v : Mode) : (s.withMode v).clock = s.clock := rfl
@[simp] theorem State.withMode_buzzer (s : State) (v : Mode) : (s.withMode v).buzzer = s.buzzer := rfl
@[simp] theorem State.withMode_adc (s : State) (v : Mode) : (s.withMode v).adc = s.adc := rfl
@[simp] theorem State.withMode_power (s : State) (v : Mode) : (s.withMode v).power = s.power := rfl
@[simp] theorem State.withMode_mode (s : State) (v : Mode) : (s.withMode v).mode = v := rfl
@[simp] theorem State.withMode_device (s : State) (v : Mode) : (s.withMode v).device = s.device := rfl
@[simp] theorem State.withMode_options (s : State) (v : Mode) : (s.withMode v).options = s.options := rfl
@[simp] theorem State.withMode_bootPending (s : State) (v : Mode) : (s.withMode v).bootPending = s.bootPending := rfl
@[simp] theorem State.withMode_schedule (s : State) (v : Mode) : (s.withMode v).schedule = s.schedule := rfl
@[simp] theorem State.withMode_midEvents (s : State) (v : Mode) : (s.withMode v).midEvents = s.midEvents := rfl
@[simp] theorem State.withMode_powerCycle (s : State) (v : Mode) : (s.withMode v).powerCycle = s.powerCycle := rfl
@[simp] theorem State.withMode_draws (s : State) (v : Mode) : (s.withMode v).draws = s.draws := rfl

@[simp] theorem State.withMidEvents_a (s : State) (v : List Event) : (s.withMidEvents v).a = s.a := rfl
@[simp] theorem State.withMidEvents_x (s : State) (v : List Event) : (s.withMidEvents v).x = s.x := rfl
@[simp] theorem State.withMidEvents_y (s : State) (v : List Event) : (s.withMidEvents v).y = s.y := rfl
@[simp] theorem State.withMidEvents_sp (s : State) (v : List Event) : (s.withMidEvents v).sp = s.sp := rfl
@[simp] theorem State.withMidEvents_psw (s : State) (v : List Event) : (s.withMidEvents v).psw = s.psw := rfl
@[simp] theorem State.withMidEvents_pc (s : State) (v : List Event) : (s.withMidEvents v).pc = s.pc := rfl
@[simp] theorem State.withMidEvents_mem (s : State) (v : List Event) : (s.withMidEvents v).mem = s.mem := rfl
@[simp] theorem State.withMidEvents_ports (s : State) (v : List Event) : (s.withMidEvents v).ports = s.ports := rfl
@[simp] theorem State.withMidEvents_timers (s : State) (v : List Event) : (s.withMidEvents v).timers = s.timers := rfl
@[simp] theorem State.withMidEvents_irq (s : State) (v : List Event) : (s.withMidEvents v).irq = s.irq := rfl
@[simp] theorem State.withMidEvents_clock (s : State) (v : List Event) : (s.withMidEvents v).clock = s.clock := rfl
@[simp] theorem State.withMidEvents_buzzer (s : State) (v : List Event) : (s.withMidEvents v).buzzer = s.buzzer := rfl
@[simp] theorem State.withMidEvents_adc (s : State) (v : List Event) : (s.withMidEvents v).adc = s.adc := rfl
@[simp] theorem State.withMidEvents_power (s : State) (v : List Event) : (s.withMidEvents v).power = s.power := rfl
@[simp] theorem State.withMidEvents_mode (s : State) (v : List Event) : (s.withMidEvents v).mode = s.mode := rfl
@[simp] theorem State.withMidEvents_device (s : State) (v : List Event) : (s.withMidEvents v).device = s.device := rfl
@[simp] theorem State.withMidEvents_options (s : State) (v : List Event) : (s.withMidEvents v).options = s.options := rfl
@[simp] theorem State.withMidEvents_bootPending (s : State) (v : List Event) : (s.withMidEvents v).bootPending = s.bootPending := rfl
@[simp] theorem State.withMidEvents_schedule (s : State) (v : List Event) : (s.withMidEvents v).schedule = s.schedule := rfl
@[simp] theorem State.withMidEvents_midEvents (s : State) (v : List Event) : (s.withMidEvents v).midEvents = v := rfl
@[simp] theorem State.withMidEvents_powerCycle (s : State) (v : List Event) : (s.withMidEvents v).powerCycle = s.powerCycle := rfl
@[simp] theorem State.withMidEvents_draws (s : State) (v : List Event) : (s.withMidEvents v).draws = s.draws := rfl

@[simp] theorem State.withSchedule_a (s : State) (v : List Turn) : (s.withSchedule v).a = s.a := rfl
@[simp] theorem State.withSchedule_x (s : State) (v : List Turn) : (s.withSchedule v).x = s.x := rfl
@[simp] theorem State.withSchedule_y (s : State) (v : List Turn) : (s.withSchedule v).y = s.y := rfl
@[simp] theorem State.withSchedule_sp (s : State) (v : List Turn) : (s.withSchedule v).sp = s.sp := rfl
@[simp] theorem State.withSchedule_psw (s : State) (v : List Turn) : (s.withSchedule v).psw = s.psw := rfl
@[simp] theorem State.withSchedule_pc (s : State) (v : List Turn) : (s.withSchedule v).pc = s.pc := rfl
@[simp] theorem State.withSchedule_mem (s : State) (v : List Turn) : (s.withSchedule v).mem = s.mem := rfl
@[simp] theorem State.withSchedule_ports (s : State) (v : List Turn) : (s.withSchedule v).ports = s.ports := rfl
@[simp] theorem State.withSchedule_timers (s : State) (v : List Turn) : (s.withSchedule v).timers = s.timers := rfl
@[simp] theorem State.withSchedule_irq (s : State) (v : List Turn) : (s.withSchedule v).irq = s.irq := rfl
@[simp] theorem State.withSchedule_clock (s : State) (v : List Turn) : (s.withSchedule v).clock = s.clock := rfl
@[simp] theorem State.withSchedule_buzzer (s : State) (v : List Turn) : (s.withSchedule v).buzzer = s.buzzer := rfl
@[simp] theorem State.withSchedule_adc (s : State) (v : List Turn) : (s.withSchedule v).adc = s.adc := rfl
@[simp] theorem State.withSchedule_power (s : State) (v : List Turn) : (s.withSchedule v).power = s.power := rfl
@[simp] theorem State.withSchedule_mode (s : State) (v : List Turn) : (s.withSchedule v).mode = s.mode := rfl
@[simp] theorem State.withSchedule_device (s : State) (v : List Turn) : (s.withSchedule v).device = s.device := rfl
@[simp] theorem State.withSchedule_options (s : State) (v : List Turn) : (s.withSchedule v).options = s.options := rfl
@[simp] theorem State.withSchedule_bootPending (s : State) (v : List Turn) : (s.withSchedule v).bootPending = s.bootPending := rfl
@[simp] theorem State.withSchedule_schedule (s : State) (v : List Turn) : (s.withSchedule v).schedule = v := rfl
@[simp] theorem State.withSchedule_midEvents (s : State) (v : List Turn) : (s.withSchedule v).midEvents = s.midEvents := rfl
@[simp] theorem State.withSchedule_powerCycle (s : State) (v : List Turn) : (s.withSchedule v).powerCycle = s.powerCycle := rfl
@[simp] theorem State.withSchedule_draws (s : State) (v : List Turn) : (s.withSchedule v).draws = s.draws := rfl

@[simp] theorem State.spend_a (s : State) (k : Nat) : (s.spend k).a = s.a := rfl
@[simp] theorem State.spend_x (s : State) (k : Nat) : (s.spend k).x = s.x := rfl
@[simp] theorem State.spend_y (s : State) (k : Nat) : (s.spend k).y = s.y := rfl
@[simp] theorem State.spend_sp (s : State) (k : Nat) : (s.spend k).sp = s.sp := rfl
@[simp] theorem State.spend_psw (s : State) (k : Nat) : (s.spend k).psw = s.psw := rfl
@[simp] theorem State.spend_pc (s : State) (k : Nat) : (s.spend k).pc = s.pc := rfl
@[simp] theorem State.spend_mem (s : State) (k : Nat) : (s.spend k).mem = s.mem := rfl
@[simp] theorem State.spend_ports (s : State) (k : Nat) : (s.spend k).ports = s.ports := rfl
@[simp] theorem State.spend_timers (s : State) (k : Nat) : (s.spend k).timers = s.timers := rfl
@[simp] theorem State.spend_irq (s : State) (k : Nat) : (s.spend k).irq = s.irq := rfl
@[simp] theorem State.spend_clock (s : State) (k : Nat) : (s.spend k).clock = s.clock := rfl
@[simp] theorem State.spend_buzzer (s : State) (k : Nat) : (s.spend k).buzzer = s.buzzer := rfl
@[simp] theorem State.spend_adc (s : State) (k : Nat) : (s.spend k).adc = s.adc := rfl
@[simp] theorem State.spend_power (s : State) (k : Nat) : (s.spend k).power = s.power := rfl
@[simp] theorem State.spend_mode (s : State) (k : Nat) : (s.spend k).mode = s.mode := rfl
@[simp] theorem State.spend_device (s : State) (k : Nat) : (s.spend k).device = s.device := rfl
@[simp] theorem State.spend_options (s : State) (k : Nat) : (s.spend k).options = s.options := rfl
@[simp] theorem State.spend_bootPending (s : State) (k : Nat) : (s.spend k).bootPending = s.bootPending := rfl
@[simp] theorem State.spend_schedule (s : State) (k : Nat) : (s.spend k).schedule = s.schedule := rfl
@[simp] theorem State.spend_midEvents (s : State) (k : Nat) : (s.spend k).midEvents = s.midEvents := rfl
@[simp] theorem State.spend_powerCycle (s : State) (k : Nat) : (s.spend k).powerCycle = s.powerCycle := rfl
@[simp] theorem State.spend_draws (s : State) (k : Nat) : (s.spend k).draws = s.draws + k := rfl

@[simp] theorem State.request_a (s : State) (src : IntSource) : (s.request src).a = s.a := rfl
@[simp] theorem State.request_x (s : State) (src : IntSource) : (s.request src).x = s.x := rfl
@[simp] theorem State.request_y (s : State) (src : IntSource) : (s.request src).y = s.y := rfl
@[simp] theorem State.request_sp (s : State) (src : IntSource) : (s.request src).sp = s.sp := rfl
@[simp] theorem State.request_psw (s : State) (src : IntSource) : (s.request src).psw = s.psw := rfl
@[simp] theorem State.request_pc (s : State) (src : IntSource) : (s.request src).pc = s.pc := rfl
@[simp] theorem State.request_mem (s : State) (src : IntSource) : (s.request src).mem = s.mem := rfl
@[simp] theorem State.request_ports (s : State) (src : IntSource) : (s.request src).ports = s.ports := rfl
@[simp] theorem State.request_timers (s : State) (src : IntSource) : (s.request src).timers = s.timers := rfl
@[simp] theorem State.request_irq (s : State) (src : IntSource) : (s.request src).irq = src.raise s.irq := rfl
@[simp] theorem State.request_clock (s : State) (src : IntSource) : (s.request src).clock = s.clock := rfl
@[simp] theorem State.request_buzzer (s : State) (src : IntSource) : (s.request src).buzzer = s.buzzer := rfl
@[simp] theorem State.request_adc (s : State) (src : IntSource) : (s.request src).adc = s.adc := rfl
@[simp] theorem State.request_power (s : State) (src : IntSource) : (s.request src).power = s.power := rfl
@[simp] theorem State.request_mode (s : State) (src : IntSource) : (s.request src).mode = s.mode := rfl
@[simp] theorem State.request_device (s : State) (src : IntSource) : (s.request src).device = s.device := rfl
@[simp] theorem State.request_options (s : State) (src : IntSource) : (s.request src).options = s.options := rfl
@[simp] theorem State.request_bootPending (s : State) (src : IntSource) : (s.request src).bootPending = s.bootPending := rfl
@[simp] theorem State.request_schedule (s : State) (src : IntSource) : (s.request src).schedule = s.schedule := rfl
@[simp] theorem State.request_midEvents (s : State) (src : IntSource) : (s.request src).midEvents = s.midEvents := rfl
@[simp] theorem State.request_powerCycle (s : State) (src : IntSource) : (s.request src).powerCycle = s.powerCycle := rfl
@[simp] theorem State.request_draws (s : State) (src : IntSource) : (s.request src).draws = s.draws := rfl

@[simp] theorem State.setYA_a (s : State) (w : Word) : (s.setYA w).a = loByte w := rfl
@[simp] theorem State.setYA_x (s : State) (w : Word) : (s.setYA w).x = s.x := rfl
@[simp] theorem State.setYA_y (s : State) (w : Word) : (s.setYA w).y = hiByte w := rfl
@[simp] theorem State.setYA_sp (s : State) (w : Word) : (s.setYA w).sp = s.sp := rfl
@[simp] theorem State.setYA_psw (s : State) (w : Word) : (s.setYA w).psw = s.psw := rfl
@[simp] theorem State.setYA_pc (s : State) (w : Word) : (s.setYA w).pc = s.pc := rfl
@[simp] theorem State.setYA_mem (s : State) (w : Word) : (s.setYA w).mem = s.mem := rfl
@[simp] theorem State.setYA_ports (s : State) (w : Word) : (s.setYA w).ports = s.ports := rfl
@[simp] theorem State.setYA_timers (s : State) (w : Word) : (s.setYA w).timers = s.timers := rfl
@[simp] theorem State.setYA_irq (s : State) (w : Word) : (s.setYA w).irq = s.irq := rfl
@[simp] theorem State.setYA_clock (s : State) (w : Word) : (s.setYA w).clock = s.clock := rfl
@[simp] theorem State.setYA_buzzer (s : State) (w : Word) : (s.setYA w).buzzer = s.buzzer := rfl
@[simp] theorem State.setYA_adc (s : State) (w : Word) : (s.setYA w).adc = s.adc := rfl
@[simp] theorem State.setYA_power (s : State) (w : Word) : (s.setYA w).power = s.power := rfl
@[simp] theorem State.setYA_mode (s : State) (w : Word) : (s.setYA w).mode = s.mode := rfl
@[simp] theorem State.setYA_device (s : State) (w : Word) : (s.setYA w).device = s.device := rfl
@[simp] theorem State.setYA_options (s : State) (w : Word) : (s.setYA w).options = s.options := rfl
@[simp] theorem State.setYA_bootPending (s : State) (w : Word) : (s.setYA w).bootPending = s.bootPending := rfl
@[simp] theorem State.setYA_schedule (s : State) (w : Word) : (s.setYA w).schedule = s.schedule := rfl
@[simp] theorem State.setYA_midEvents (s : State) (w : Word) : (s.setYA w).midEvents = s.midEvents := rfl
@[simp] theorem State.setYA_powerCycle (s : State) (w : Word) : (s.setYA w).powerCycle = s.powerCycle := rfl
@[simp] theorem State.setYA_draws (s : State) (w : Word) : (s.setYA w).draws = s.draws := rfl

@[simp] theorem State.spend_zero (s : State) : s.spend 0 = s := rfl

@[simp] theorem State.spend_spend (s : State) (j k : Nat) : (s.spend j).spend k = s.spend (j + k) := by
  simp [State.spend, Nat.add_assoc]

@[simp] theorem ClockUnit.clearWatchdog_wdtcnt (c : ClockUnit) : c.clearWatchdog.wdtcnt = 0 := rfl
@[simp] theorem ClockUnit.clearWatchdog_wdtWrapped (c : ClockUnit) : c.clearWatchdog.wdtWrapped = false := rfl
@[simp] theorem ClockUnit.clearWatchdog_wdtr (c : ClockUnit) : c.clearWatchdog.wdtr = c.wdtr := rfl
@[simp] theorem ClockUnit.clearWatchdog_wdton (c : ClockUnit) : c.clearWatchdog.wdton = c.wdton := rfl
@[simp] theorem ClockUnit.clearWatchdog_bitr (c : ClockUnit) : c.clearWatchdog.bitr = c.bitr := rfl
@[simp] theorem ClockUnit.countOverflow_wdtcnt (c : ClockUnit) : c.countOverflow.wdtcnt = c.wdtcnt + 1 := rfl
@[simp] theorem ClockUnit.countOverflow_wdtr (c : ClockUnit) : c.countOverflow.wdtr = c.wdtr := rfl
@[simp] theorem ClockUnit.countOverflow_wdton (c : ClockUnit) : c.countOverflow.wdton = c.wdton := rfl
@[simp] theorem ClockUnit.countOverflow_bitr (c : ClockUnit) : c.countOverflow.bitr = c.bitr := rfl

/-- An overflow has been counted after a count. -/
@[simp] theorem ClockUnit.countOverflow_counting (c : ClockUnit) : c.countOverflow.counting = true := by
  by_cases h : c.wdtcnt = 0x7F
  · simp [ClockUnit.counting, ClockUnit.countOverflow, h]
  · simp only [ClockUnit.counting, ClockUnit.countOverflow, Bool.or_eq_true, bne_iff_ne]
    exact .inr fun e => h (by bv_omega)

@[simp] theorem ClockUnit.clearWatchdog_counting (c : ClockUnit) : c.clearWatchdog.counting = false := rfl

@[simp] theorem Res.bind_ok {α β : Type} (v : α) (s : State) (f : α → State → Res β) :
    (Res.ok v s).bind f = f v s := rfl

@[simp] theorem Res.bind_fault {α β : Type} (e : Fault) (f : α → State → Res β) :
    (Res.fault e : Res α).bind f = .fault e := rfl

@[simp] theorem Res.done_ok {α : Type} (v : α) (s : State) (f : α → State → State) :
    (Res.ok v s).done f = .next (f v s) := rfl

@[simp] theorem Res.done_fault {α : Type} (e : Fault) (f : α → State → State) :
    (Res.fault e : Res α).done f = .fault e := rfl

/-- An operation that answers after another: both answered. -/
theorem Res.bind_eq_ok {α β : Type} {r : Res α} {f : α → State → Res β} {v : β} {s : State} :
    r.bind f = .ok v s ↔ ∃ w s1, r = .ok w s1 ∧ f w s1 = .ok v s := by
  cases r with
  | ok w s1 => simp
  | fault e => simp

/-- An instruction that ends in a next state: its operation answered. -/
theorem Res.done_eq_next {α : Type} {r : Res α} {f : α → State → State} {t : State} :
    r.done f = .next t ↔ ∃ v s1, r = .ok v s1 ∧ f v s1 = t := by
  cases r with
  | ok v s1 => simp
  | fault e => simp

end Sys2Proof.Machine
end

