-- ==== Sys2Proof/Laws/Ops.lean ====
section
/-! SUPPORT. What each shared operation can do, said once: reads use free values and change nothing else; a write changes
one byte of memory or one register; the events inside an instruction change peripherals only. -/

namespace Sys2Proof.Machine

/-! ## Reads -/

/-- A sample of a view uses free values and changes nothing else. -/
theorem View.sample_state (w : View) (s : State) : ∃ k, (w.sample s).2 = s.spend k := by
  unfold View.sample
  split
  · exact ⟨0, rfl⟩
  · exact ⟨1, rfl⟩

/-- What a memory read that answers can do. -/
theorem memRead_ok {a : Word} {s t : State} {v : Byte} (h : memRead a s = .ok v t) :
    readable s.device a = true ∧ ∃ k, t = s.spend k := by
  unfold memRead at h
  unfold readable
  split at h
  · rename_i hr; cases h; exact ⟨by rw [hr]; rfl, 0, rfl⟩
  · rename_i hr; cases h; exact ⟨by rw [hr]; rfl, 0, rfl⟩
  · rename_i r hr; cases h
    obtain ⟨k, hk⟩ := View.sample_state (sfrView r s) s
    exact ⟨by rw [hr]; rfl, k, hk⟩
  · cases h

/-- A memory read of a readable address answers. -/
theorem memRead_answers {a : Word} {s : State} (h : readable s.device a = true) :
    ∃ v k, memRead a s = .ok v (s.spend k) := by
  unfold memRead
  unfold readable at h
  split
  · exact ⟨_, 0, rfl⟩
  · exact ⟨_, 0, rfl⟩
  · rename_i r hr
    obtain ⟨k, hk⟩ := View.sample_state (sfrView r s) s
    exact ⟨_, k, by rw [readSfr, hk]⟩
  · simp_all

/-- An address below 80H is RAM. -/
theorem regionOf_ram {d : Device} {a : Word} : regionOf d a = .ram ↔ inRam a := by
  unfold regionOf inRam
  split
  · simp_all
  · split
    · simp_all
    · split <;> simp_all

/-- A read of RAM. -/
theorem memRead_ram {a : Word} {s : State} (h : inRam a) : memRead a s = .ok (s.ramByte a) s := by
  simp [memRead, regionOf_ram.mpr h]

/-- The direct page while G = 0. -/
theorem directPage_clear {d : Byte} {s : State} (h : flag .g s.psw = false) : directPage d s = .ok (zext16 d) s := by
  simp [directPage, h]

/-- What a direct-page address that is formed is. -/
theorem directPage_ok {d : Byte} {s t : State} {a : Word} (h : directPage d s = .ok a t) :
    flag .g s.psw = false ∧ a = zext16 d ∧ t = s := by
  unfold directPage at h
  split at h
  · cases h
  · cases h; simp_all

/-- What a pair of reads that answers does: two reads, low byte first. -/
theorem readPair_eq_ok {d : Byte} {s t : State} {w : Word} (h : readPair d s = .ok w t) :
    ∃ lo hi s1, flag .g s.psw = false ∧ memRead (zext16 d) s = .ok lo s1 ∧
      memRead (zext16 (d + 1)) s1 = .ok hi t ∧ w = wordOf hi lo := by
  unfold readPair at h
  obtain ⟨a, s0, h0, hb0⟩ := Res.bind_eq_ok.mp h
  obtain ⟨hg, rfl, rfl⟩ := directPage_ok h0
  obtain ⟨lo, s1, h1, hb1⟩ := Res.bind_eq_ok.mp hb0
  obtain ⟨b, s2, h2, hb2⟩ := Res.bind_eq_ok.mp hb1
  obtain ⟨-, rfl, rfl⟩ := directPage_ok h2
  obtain ⟨hi, s3, h3, hb3⟩ := Res.bind_eq_ok.mp hb2
  cases hb3
  exact ⟨lo, hi, s2, hg, h1, h3, rfl⟩

/-- A pair of reads uses free values and changes nothing else. -/
theorem readPair_ok {d : Byte} {s t : State} {w : Word} (h : readPair d s = .ok w t) : ∃ k, t = s.spend k := by
  obtain ⟨lo, hi, s1, -, h1, h2, -⟩ := readPair_eq_ok h
  obtain ⟨-, k, rfl⟩ := memRead_ok h1
  obtain ⟨-, j, rfl⟩ := memRead_ok h2
  exact ⟨k + j, State.spend_spend _ _ _⟩

/-- An effective address: free values may be used, nothing else changes. -/
theorem effectiveAddress_ok {o : Operand} {s t : State} {ea : Word} (h : effectiveAddress o s = .ok ea t) :
    ∃ k, t = s.spend k := by
  cases o with
  | dp d | dpX d | dpY d | atX =>
    simp only [effectiveAddress, directPage] at h
    split at h <;> cases h
    exact ⟨0, rfl⟩
  | abs a | absY a => cases h; exact ⟨0, rfl⟩
  | indX d => exact readPair_ok h
  | indY d =>
    simp only [effectiveAddress] at h
    obtain ⟨p, s1, h1, h⟩ := Res.bind_eq_ok.mp h
    cases h
    exact readPair_ok h1

/-- A source operand: free values may be used, nothing else changes. -/
theorem readSource_ok {src : Source} {s t : State} {v : Byte} (h : readSource src s = .ok v t) :
    ∃ k, t = s.spend k := by
  cases src with
  | imm v => cases h; exact ⟨0, rfl⟩
  | mem o =>
    simp only [readSource] at h
    obtain ⟨ea, s1, h1, h⟩ := Res.bind_eq_ok.mp h
    obtain ⟨k, rfl⟩ := effectiveAddress_ok h1
    obtain ⟨-, j, rfl⟩ := memRead_ok h
    exact ⟨k + j, State.spend_spend _ _ _⟩

/-! ## Bytes of memory -/

@[simp] theorem State.byteAt_spend (s : State) (k : Nat) (a : Word) : (s.spend k).byteAt a = s.byteAt a := rfl

@[simp] theorem State.byteAt_withCpu (s : State) (c : Cpu) (a : Word) : (s.withCpu c).byteAt a = s.byteAt a := rfl

@[simp] theorem State.cpu_spend (s : State) (k : Nat) : (s.spend k).cpu = s.cpu := rfl

@[simp] theorem State.cpu_withCpu (s : State) (c : Cpu) : (s.withCpu c).cpu = c := rfl

@[simp] theorem State.withCpu_cpu (s : State) : s.withCpu s.cpu = s := rfl

/-- The bytes of memory depend on four fields. -/
theorem State.byteAt_congr {s t : State} (hm : t.mem = s.mem) (hd : t.device = s.device)
    (hp : t.powerCycle = s.powerCycle) (a : Word) : t.byteAt a = s.byteAt a := by
  simp [State.byteAt, State.ramByte, State.romByte, hm, hd, hp]

/-- A state that differs in CPU registers and free values only. -/
theorem onlyCpu_intro (c : Cpu) (s : State) (k : Nat) : onlyCpu c s ((s.withCpu c).spend k) :=
  ⟨⟨k, rfl⟩, fun _ => rfl⟩

/-! ## Writes -/

/-- What a write to a control register leaves alone. -/
theorem writeSfr_kept (r : Sfr) (v : Byte) (s : State) :
    (writeSfr r v s).cpu = s.cpu ∧ (writeSfr r v s).mem = s.mem ∧ (writeSfr r v s).mode = s.mode ∧
      (writeSfr r v s).draws = s.draws ∧ settingKept s (writeSfr r v s) := by
  cases r <;> exact ⟨rfl, rfl, rfl, rfl, rfl, rfl, rfl, rfl, rfl, rfl⟩

/-- What a memory write that answers can do. -/
theorem memWrite_ok {a : Word} {v : Byte} {s t : State} {u : Unit} (h : memWrite a v s = .ok u t) :
    writable s.device a = true ∧ t.cpu = s.cpu ∧ t.mode = s.mode ∧ t.draws = s.draws ∧ settingKept s t ∧
      memoryKept (· = a) s t ∧ (inRam a → t.byteAt a = some v ∧ t.peripherals = s.peripherals) := by
  unfold memWrite at h
  split at h
  · rename_i hr
    cases h
    refine ⟨by simp [writable, hr], rfl, rfl, rfl, ⟨rfl, rfl, rfl, rfl, rfl, rfl⟩, fun b hb => ?_, fun _ => ⟨?_, rfl⟩⟩
    · have hne : b.toNat ≠ a.toNat := fun e => hb (BitVec.eq_of_toNat_eq e)
      simp [State.byteAt, State.ramByte, State.romByte, Memory.read_write_other _ _ hne]
    · simp [State.byteAt, State.ramByte, hr]
  · cases h
  · cases h
  · rename_i r hr hne
    cases h
    obtain ⟨h1, h2, h3, h4, h5⟩ := writeSfr_kept r v s
    refine ⟨?_, h1, h3, h4, h5, fun b _ => State.byteAt_congr h2 h5.1 h5.2.2.2.2.2 b, fun hram => ?_⟩
    · simp only [writable, hne]; cases r <;> simp_all
    · rw [regionOf_ram.mpr hram] at hne; cases hne
  · cases h

/-- A memory write to a writable address answers. -/
theorem memWrite_answers {a : Word} {v : Byte} {s : State} (h : writable s.device a = true) :
    ∃ t, memWrite a v s = .ok () t := by
  unfold memWrite
  unfold writable at h
  split <;> simp_all

/-- The address of a control register is one on every device. -/
theorem regionOf_sfr {a : Word} {r : Sfr} (d : Device) (h : sfrAt a = some r) : regionOf d a = .sfr r := by
  have hb : 0xC0 ≤ a.toNat ∧ a.toNat < 0x100 := by
    unfold sfrAt at h
    split at h <;> first | omega | cases h
  have hr : 0xF000 ≤ d.romBase := by cases d <;> decide
  unfold regionOf
  rw [if_neg (by omega), if_neg (by omega), h]

/-- A write to a control register with a write side. -/
theorem memWrite_sfr {a : Word} {r : Sfr} (v : Byte) (s : State) (h : sfrAt a = some r) (hr : r ≠ .adcr) :
    memWrite a v s = .ok () (writeSfr r v s) := by
  unfold memWrite
  rw [regionOf_sfr _ h]
  cases r <;> first | rfl | exact absurd rfl hr

/-- A read of a control register. -/
theorem memRead_sfr {a : Word} {r : Sfr} (s : State) (h : sfrAt a = some r) :
    memRead a s = .ok (readSfr r s).1 (readSfr r s).2 := by
  unfold memRead
  rw [regionOf_sfr _ h]

/-! ## Events inside an instruction -/

/-- What a peripheral event keeps: CPU registers, memory, mode and setting. -/
def quiet (s t : State) : Prop :=
  t.cpu = s.cpu ∧ t.mem = s.mem ∧ t.mode = s.mode ∧ settingKept s t

theorem quiet_refl (s : State) : quiet s s := ⟨rfl, rfl, rfl, rfl, rfl, rfl, rfl, rfl, rfl⟩

theorem quiet_trans {s t u : State} (h : quiet s t) (h' : quiet t u) : quiet s u := by
  obtain ⟨a1, a2, a3, a4, a5, a6, a7, a8, a9⟩ := h
  obtain ⟨b1, b2, b3, b4, b5, b6, b7, b8, b9⟩ := h'
  exact ⟨b1.trans a1, b2.trans a2, b3.trans a3, b4.trans a4, b5.trans a5, b6.trans a6, b7.trans a7, b8.trans a8,
    b9.trans a9⟩

theorem quiet_timer0Tick (s : State) : quiet s (timer0Tick s) := by
  unfold timer0Tick
  repeat' (first | exact ⟨rfl, rfl, rfl, rfl, rfl, rfl, rfl, rfl, rfl⟩ | split | simp only)

theorem quiet_timer1Tick (s : State) : quiet s (timer1Tick s) := by
  unfold timer1Tick pwmTick
  repeat' (first | exact ⟨rfl, rfl, rfl, rfl, rfl, rfl, rfl, rfl, rfl⟩ | split | simp only)

theorem quiet_ite {s t u : State} (c : Bool) (h : quiet s t) (h' : quiet s u) :
    quiet s (if c = true then t else u) := by
  split <;> assumption

theorem quiet_ec0Edge (s : State) : quiet s (ec0Edge s) := by
  unfold ec0Edge
  have h1 : quiet s (if timer0Runs s.timers = true then timer0Tick s else s) :=
    quiet_ite _ (quiet_timer0Tick s) (quiet_refl s)
  exact quiet_ite _ (quiet_trans h1 (quiet_timer1Tick _)) h1

theorem quiet_int0Edge (s : State) : quiet s (int0Edge s) := by
  unfold int0Edge capture0
  repeat' (first | exact ⟨rfl, rfl, rfl, rfl, rfl, rfl, rfl, rfl, rfl⟩ | split | simp only)

theorem quiet_int1Edge (s : State) : quiet s (int1Edge s) := by
  unfold int1Edge capture1
  split <;> exact ⟨rfl, rfl, rfl, rfl, rfl, rfl, rfl, rfl, rfl⟩

theorem quiet_serveEdges (ec0 int0 int1 : Bool) (s : State) : quiet s (serveEdges ec0 int0 int1 s) := by
  unfold serveEdges
  have h1 := quiet_ite ec0 (quiet_ec0Edge s) (quiet_refl s)
  have h2 := quiet_ite int0 (quiet_trans h1 (quiet_int0Edge _)) h1
  exact quiet_ite int1 (quiet_trans h2 (quiet_int1Edge _)) h2

theorem quiet_pinsEvent (ra : Byte) (rb : BitVec 5) (rc : BitVec 2) (rd : BitVec 4) (s : State) :
    quiet s (pinsEvent ra rb rc rd s) :=
  quiet_trans (t := takeLevels ra rb rc rd s) ⟨rfl, rfl, rfl, rfl, rfl, rfl, rfl, rfl, rfl⟩
    (quiet_serveEdges _ _ _ _)

/-- A match of the watchdog with WDTON = 0: the request flag is set and the counter restarts. -/
theorem watchdogMatch_requests (torn : Torn) {s : State} (h : s.clock.wdton = false) :
    watchdogMatch torn s = (s.withClock s.clock.clearWatchdog).request .watchdog := by simp [watchdogMatch, h]

/-- A match of the watchdog with WDTON = 1: the CPU is reset. -/
theorem watchdogMatch_resets (torn : Torn) {s : State} (h : s.clock.wdton = true) :
    watchdogMatch torn s = performReset .watchdog torn s := by simp [watchdogMatch, h]

theorem quiet_watchdogMatch (torn : Torn) {s : State} (h : s.clock.wdton = false) :
    quiet s (watchdogMatch torn s) := by
  rw [watchdogMatch_requests torn h]
  exact ⟨rfl, rfl, rfl, rfl, rfl, rfl, rfl, rfl, rfl⟩

theorem quiet_watchdogTick (torn : Torn) (s : State)
    (h : (s.clock.wdtcnt + 1 == s.clock.wdtr && s.clock.wdton) = false) : quiet s (watchdogTick torn s) := by
  unfold watchdogTick
  split
  case isTrue hm =>
    exact quiet_watchdogMatch torn (by simp at h; exact h hm)
  case isFalse => exact ⟨rfl, rfl, rfl, rfl, rfl, rfl, rfl, rfl, rfl⟩

/-- The match is forced only where the environment could have delivered it. -/
theorem ClockUnit.watchdogEqual_due {c : ClockUnit} (h : c.watchdogEqual = true) : c.watchdogDue = true := by
  simp_all [ClockUnit.watchdogEqual, ClockUnit.watchdogDue]

/-- What the end of an instruction does to the watchdog: nothing, or a match. -/
theorem settleWatchdog_ok (s : State) :
    (s.clock.watchdogEqual = false ∧ settleWatchdog s = s) ∨
    (s.clock.watchdogEqual = true ∧ settleWatchdog s = watchdogMatch [] s) := by
  unfold settleWatchdog
  cases s.clock.watchdogEqual <;> simp

theorem quiet_bitTick (torn : Torn) (s : State) (h : (Event.bitClock torn).disrupts s = false) :
    quiet s (bitTick torn s) := by
  simp only [Event.disrupts] at h
  unfold bitTick
  split
  · refine quiet_trans (t := (s.withClock { s.clock with bitr := 0 }).request .basicInterval)
      ⟨rfl, rfl, rfl, rfl, rfl, rfl, rfl, rfl, rfl⟩ (quiet_watchdogTick _ _ ?_)
    simp_all
  · exact ⟨rfl, rfl, rfl, rfl, rfl, rfl, rfl, rfl, rfl⟩

/-- An event that does not disrupt is quiet. -/
theorem quiet_fireRunning (e : Event) (s : State) (h : e.disrupts s = false) : quiet s (fireRunning e s) := by
  cases e <;> simp only [fireRunning]
  case bitClock torn => split; exacts [quiet_bitTick torn s h, quiet_refl s]
  case watchdogMatch torn =>
    split
    case isTrue hd => exact quiet_watchdogMatch torn (by simpa [Event.disrupts, hd.1] using h)
    case isFalse => exact quiet_refl s
  case t0Clock => exact quiet_ite _ (quiet_timer0Tick s) (quiet_refl s)
  case t1Clock => exact quiet_ite _ (quiet_timer1Tick s) (quiet_refl s)
  case buzClock => split <;> exact ⟨rfl, rfl, rfl, rfl, rfl, rfl, rfl, rfl, rfl⟩
  case adcDone result => split <;> exact ⟨rfl, rfl, rfl, rfl, rfl, rfl, rfl, rfl, rfl⟩
  case pins ra rb rc rd => exact quiet_pinsEvent ra rb rc rd s
  all_goals cases h

/-- An event that does not disrupt is quiet. -/
theorem quiet_fireEvent (e : Event) (s : State) (h : e.disrupts s = false) : quiet s (fireEvent e s) := by
  unfold fireEvent
  split
  · cases e <;> first | exact quiet_refl s | (simp [Event.disrupts] at h)
  · exact quiet_fireRunning e s h

/-- The events inside an instruction are quiet. -/
theorem quiet_fireMid (es : List Event) (s : State) : quiet s (fireMid es s) := by
  induction es generalizing s with
  | nil => exact quiet_refl s
  | cons e rest ih =>
    simp only [fireMid]
    split
    · exact ih s
    · exact quiet_trans (quiet_fireEvent e s (by simp_all)) (ih _)

/-- Between the read and the write of an instruction nothing but peripherals changes. -/
theorem quiet_betweenReadAndWrite (s : State) : quiet s (betweenReadAndWrite s) := quiet_fireMid _ _

/-- Without events nothing happens between the read and the write. -/
theorem betweenReadAndWrite_none {s : State} (h : s.midEvents = []) : betweenReadAndWrite s = s := by
  simp [betweenReadAndWrite, h, fireMid]

/-- A quiet change shows the same bytes of memory. -/
theorem quiet_byteAt {s t : State} (h : quiet s t) (a : Word) : t.byteAt a = s.byteAt a :=
  State.byteAt_congr h.2.1 h.2.2.2.1 h.2.2.2.2.2.2.2.2 a

/-- What may be modified may be read and written. -/
theorem modifiable_readable {d : Device} {a : Word} (h : modifiable d a = true) : readable d a = true := by
  unfold modifiable at h
  unfold readable
  split at h <;> simp_all

/-- What may be modified may be read and written. -/
theorem modifiable_writable {d : Device} {a : Word} (h : modifiable d a = true) : writable d a = true := by
  unfold modifiable at h
  unfold writable
  split at h <;> simp_all
  rintro rfl
  simp [Sfr.byteOnly] at h

/-- The check of a read-modify-write passes on what may be modified. -/
theorem rmwCheck_modifiable {a : Word} {s : State} (h : modifiable s.device a = true) : rmwCheck a s = .ok () s := by
  unfold modifiable at h
  unfold rmwCheck
  split at h <;> simp_all

/-- A read-modify-write of a modifiable byte answers. -/
theorem rmwByte_answers {a : Word} (f : Byte → Byte) {s : State} (h : modifiable s.device a = true) :
    ∃ v t, rmwByte a f s = .ok v t ∧ rewrites a v (f v) s t := by
  obtain ⟨v, k, hr⟩ := memRead_answers (s := s) (modifiable_readable h)
  have hd : (betweenReadAndWrite (s.spend k)).device = s.device := (quiet_betweenReadAndWrite _).2.2.2.1
  obtain ⟨t, hw⟩ := memWrite_answers (v := f v) (s := betweenReadAndWrite (s.spend k)) (a := a)
    (by rw [hd]; exact modifiable_writable h)
  exact ⟨v, t, by simp [rmwByte, rmwCheck_modifiable h, hr, hw], k, hr, hw⟩

/-- What a read-modify-write leaves alone. -/
theorem rewrites_kept {a : Word} {v r : Byte} {s t : State} (h : rewrites a v r s t) :
    t.cpu = s.cpu ∧ t.mode = s.mode ∧ settingKept s t ∧ memoryKept (· = a) s t ∧
      (inRam a → t.byteAt a = some r) := by
  obtain ⟨k, hr, hw⟩ := h
  obtain ⟨-, h1, h2, -, h3, h4, h5⟩ := memWrite_ok hw
  have hq := quiet_betweenReadAndWrite (s.spend k)
  obtain ⟨q1, q2, q3, q4, q5, q6, q7, q8, q9⟩ := hq
  obtain ⟨r1, r2, r3, r4, r5, r6⟩ := h3
  refine ⟨h1.trans q1, h2.trans q3, ⟨r1.trans q4, r2.trans q5, r3.trans q6, r4.trans q7, r5.trans q8, r6.trans q9⟩,
    fun b hb => ?_, fun hram => (h5 hram).1⟩
  rw [h4 b hb]
  exact quiet_byteAt (s := s.spend k) ⟨q1, q2, q3, q4, q5, q6, q7, q8, q9⟩ b

/-! ## The converter -/

/-- What `ADEN_SEMANTICS` leaves open holds with ADEN = 1. -/
@[simp] theorem adenAllows_enabled (what : AdenSemantics → Bool) : adenAllows what true = true := rfl

/-- It holds where no value is supplied. -/
theorem adenAllows_default (what : AdenSemantics → Bool) (aden : Bool) (h : Config.adenSemantics = none) :
    adenAllows what aden = true := by simp [adenAllows, h]

/-- With ADEN = 0 it is as the parameter says. -/
theorem adenAllows_supplied {f : AdenSemantics} (what : AdenSemantics → Bool) (h : Config.adenSemantics = some f) :
    adenAllows what false = what f := by simp [adenAllows, h]

/-! ## The power-fail detector -/

/-- An event moves no field of PFDR but PFDS. -/
@[simp] theorem PowerFail.statusBy_written (after : PfdrSemantics → BitVec 4 → Bool) (p : PowerFail) :
    (p.statusBy after).pfdr.extractLsb' 1 3 = p.pfdr.extractLsb' 1 3 := by
  unfold PowerFail.statusBy
  split
  · rfl
  · simp only
    generalize after _ _ = b
    generalize p.pfdr = v
    revert b v
    decide

/-! ## Ticks -/

theorem timer0Tick_alone {s : State} (h : s.timers.bit16 = false) : timer0Tick s = timer0Counted s := by
  simp [timer0Tick, timer0Counted, h, State.request]

theorem timer1Tick_alone {s : State} (h : s.timers.pwm0e = false) : timer1Tick s = timer1Counted s := by
  simp [timer1Tick, timer1Counted, h, State.request]

theorem wordOf_toNat (a b : Byte) : (wordOf a b).toNat = 256 * a.toNat + b.toNat := by
  refine (BitVec.toNat_append a b).trans ?_
  rw [← Nat.shiftLeft_add_eq_or_of_lt b.isLt, Nat.shiftLeft_eq, Nat.mul_comm]

theorem loByte_toNat (w : Word) : (loByte w).toNat = w.toNat % 256 := by
  simp [loByte, BitVec.extractLsb']

theorem hiByte_toNat (w : Word) : (hiByte w).toNat = w.toNat / 256 := by
  simp [hiByte, BitVec.extractLsb', Nat.shiftRight_eq_div_pow]
  have := w.isLt
  omega

/-- A word is its two bytes. -/
theorem wordOf_bytes (w : Word) : wordOf (hiByte w) (loByte w) = w :=
  BitVec.eq_of_toNat_eq (by rw [wordOf_toNat, loByte_toNat, hiByte_toNat]; omega)

theorem wordOf_inj {a b c d : Byte} : wordOf a b = wordOf c d ↔ a = c ∧ b = d := by
  refine ⟨fun h => ?_, fun ⟨h1, h2⟩ => by rw [h1, h2]⟩
  have h := congrArg BitVec.toNat h
  rw [wordOf_toNat, wordOf_toNat] at h
  have := b.isLt
  have := d.isLt
  exact ⟨BitVec.eq_of_toNat_eq (by omega), BitVec.eq_of_toNat_eq (by omega)⟩

theorem timer0Tick_pair {s : State} (h : s.timers.bit16 = true) : pairCounted s (timer0Tick s) := by
  simp only [pairCounted, timer0Tick, h, wordOf_inj, if_true]
  split
  · rfl
  · exact ⟨wordOf_bytes _, rfl⟩

/-! ## Captures -/

/-- What an edge on INT0 does to the timers. -/
theorem int0Edge_timers (s : State) : (int0Edge s).timers =
    if s.timers.cap0 && timer0Runs s.timers && s.mode == .run then (capture0 s).timers else s.timers := by
  simp only [int0Edge, State.request]
  split <;> rfl

/-- What an edge on INT1 does to the timers. -/
theorem int1Edge_timers (s : State) : (int1Edge s).timers =
    if s.timers.cap1 && capture1Runs s.timers && s.mode == .run then (capture1 s).timers else s.timers := by
  simp only [int1Edge, State.request]
  split <;> rfl

/-! ## Division -/

/-- What DIV does outside the case the manual covers: free values may be used, nothing else changes. -/
theorem divOpen_ok (s : State) : ∃ k, (divOpen s).2 = s.spend k := by
  unfold divOpen
  split
  · exact ⟨0, rfl⟩
  · exact ⟨3, rfl⟩

/-- The results of DIV there, where `DIV_FN` is supplied. -/
theorem divOpen_supplied {f : Word → Byte → DivResult} (s : State) (h : Config.divFn = some f) :
    divOpen s = (f s.ya s.x, s) := by simp [divOpen, h]

/-! ## The wake-up -/

/-- A wake-up that restarts the oscillator is one overflow of BITR that the watchdog counts, BITIF set or not. -/
theorem wake_counts {s : State} (h : s.mode = .stop ∨ s.mode = .rcWdt) :
    let resumed := ((s.withMode .run).withClock { s.clock with bitr := 0 }).spend 1
    wake s = watchdogTick [] resumed ∨ wake s = watchdogTick [] (resumed.request .basicInterval) := by
  have e : wake s = watchdogTick [] (if testBit (freeAt s 0) 0
      then (((s.withMode .run).withClock { s.clock with bitr := 0 }).spend 1).request .basicInterval
      else ((s.withMode .run).withClock { s.clock with bitr := 0 }).spend 1) := by
    unfold wake
    split
    · rfl
    · rfl
    all_goals simp_all
  rw [e]
  cases testBit (freeAt s 0) 0
  · exact .inl rfl
  · exact .inr rfl

end Sys2Proof.Machine
end

