-- ==== Sys2Proof/Laws/PerInstr.lean ====
section
/-! SUPPORT. The family `EncodeLength`: for each instruction, its encoding is an opcode followed by exactly the operand bytes
that the opcode's row of the map takes (R102). One lemma per constructor of `Instr`. -/

namespace Sys2Proof.Laws.EncodeLength

open Sys2Proof

/-- The encoding is an opcode and as many operand bytes as its row takes. -/
def Statement (i : Instr) : Prop :=
  ∃ op operands, encode i = op :: operands ∧ operands.length = (buildOf op).operandBytes

/-- The rows whose opcode holds a bit number take as many operand bytes for each of the eight numbers. -/
theorem of_column (low : BitVec 5) (n : Nat)
    (h : ∀ k : Fin 8, (buildOf (bitOpcode (BitVec.ofFin k) low)).operandBytes = n) (bit : BitVec 3) :
    (buildOf (bitOpcode bit low)).operandBytes = n := h bit.toFin

/-- The eight opcodes of a column, one by one. -/
theorem eight {p : Fin 8 → Prop} (h : p 0 ∧ p 1 ∧ p 2 ∧ p 3 ∧ p 4 ∧ p 5 ∧ p 6 ∧ p 7) (k : Fin 8) : p k := by
  obtain ⟨h0, h1, h2, h3, h4, h5, h6, h7⟩ := h
  match k with
  | 0 => exact h0
  | 1 => exact h1
  | 2 => exact h2
  | 3 => exact h3
  | 4 => exact h4
  | 5 => exact h5
  | 6 => exact h6
  | 7 => exact h7

theorem unassigned : Statement .unassigned := ⟨_, _, rfl, rfl⟩
theorem adcImm (imm : Byte) : Statement (.adcImm imm) := ⟨_, _, rfl, rfl⟩
theorem adcDp (dp : Byte) : Statement (.adcDp dp) := ⟨_, _, rfl, rfl⟩
theorem adcDpX (dp : Byte) : Statement (.adcDpX dp) := ⟨_, _, rfl, rfl⟩
theorem adcAbs (abs : Word) : Statement (.adcAbs abs) := ⟨_, _, rfl, rfl⟩
theorem adcAbsY (abs : Word) : Statement (.adcAbsY abs) := ⟨_, _, rfl, rfl⟩
theorem adcIndX (dp : Byte) : Statement (.adcIndX dp) := ⟨_, _, rfl, rfl⟩
theorem adcIndY (dp : Byte) : Statement (.adcIndY dp) := ⟨_, _, rfl, rfl⟩
theorem adcAtX : Statement .adcAtX := ⟨_, _, rfl, rfl⟩
theorem sbcImm (imm : Byte) : Statement (.sbcImm imm) := ⟨_, _, rfl, rfl⟩
theorem sbcDp (dp : Byte) : Statement (.sbcDp dp) := ⟨_, _, rfl, rfl⟩
theorem sbcDpX (dp : Byte) : Statement (.sbcDpX dp) := ⟨_, _, rfl, rfl⟩
theorem sbcAbs (abs : Word) : Statement (.sbcAbs abs) := ⟨_, _, rfl, rfl⟩
theorem sbcAbsY (abs : Word) : Statement (.sbcAbsY abs) := ⟨_, _, rfl, rfl⟩
theorem sbcIndX (dp : Byte) : Statement (.sbcIndX dp) := ⟨_, _, rfl, rfl⟩
theorem sbcIndY (dp : Byte) : Statement (.sbcIndY dp) := ⟨_, _, rfl, rfl⟩
theorem sbcAtX : Statement .sbcAtX := ⟨_, _, rfl, rfl⟩
theorem cmpImm (imm : Byte) : Statement (.cmpImm imm) := ⟨_, _, rfl, rfl⟩
theorem cmpDp (dp : Byte) : Statement (.cmpDp dp) := ⟨_, _, rfl, rfl⟩
theorem cmpDpX (dp : Byte) : Statement (.cmpDpX dp) := ⟨_, _, rfl, rfl⟩
theorem cmpAbs (abs : Word) : Statement (.cmpAbs abs) := ⟨_, _, rfl, rfl⟩
theorem cmpAbsY (abs : Word) : Statement (.cmpAbsY abs) := ⟨_, _, rfl, rfl⟩
theorem cmpIndX (dp : Byte) : Statement (.cmpIndX dp) := ⟨_, _, rfl, rfl⟩
theorem cmpIndY (dp : Byte) : Statement (.cmpIndY dp) := ⟨_, _, rfl, rfl⟩
theorem cmpAtX : Statement .cmpAtX := ⟨_, _, rfl, rfl⟩
theorem orImm (imm : Byte) : Statement (.orImm imm) := ⟨_, _, rfl, rfl⟩
theorem orDp (dp : Byte) : Statement (.orDp dp) := ⟨_, _, rfl, rfl⟩
theorem orDpX (dp : Byte) : Statement (.orDpX dp) := ⟨_, _, rfl, rfl⟩
theorem orAbs (abs : Word) : Statement (.orAbs abs) := ⟨_, _, rfl, rfl⟩
theorem orAbsY (abs : Word) : Statement (.orAbsY abs) := ⟨_, _, rfl, rfl⟩
theorem orIndX (dp : Byte) : Statement (.orIndX dp) := ⟨_, _, rfl, rfl⟩
theorem orIndY (dp : Byte) : Statement (.orIndY dp) := ⟨_, _, rfl, rfl⟩
theorem orAtX : Statement .orAtX := ⟨_, _, rfl, rfl⟩
theorem andImm (imm : Byte) : Statement (.andImm imm) := ⟨_, _, rfl, rfl⟩
theorem andDp (dp : Byte) : Statement (.andDp dp) := ⟨_, _, rfl, rfl⟩
theorem andDpX (dp : Byte) : Statement (.andDpX dp) := ⟨_, _, rfl, rfl⟩
theorem andAbs (abs : Word) : Statement (.andAbs abs) := ⟨_, _, rfl, rfl⟩
theorem andAbsY (abs : Word) : Statement (.andAbsY abs) := ⟨_, _, rfl, rfl⟩
theorem andIndX (dp : Byte) : Statement (.andIndX dp) := ⟨_, _, rfl, rfl⟩
theorem andIndY (dp : Byte) : Statement (.andIndY dp) := ⟨_, _, rfl, rfl⟩
theorem andAtX : Statement .andAtX := ⟨_, _, rfl, rfl⟩
theorem eorImm (imm : Byte) : Statement (.eorImm imm) := ⟨_, _, rfl, rfl⟩
theorem eorDp (dp : Byte) : Statement (.eorDp dp) := ⟨_, _, rfl, rfl⟩
theorem eorDpX (dp : Byte) : Statement (.eorDpX dp) := ⟨_, _, rfl, rfl⟩
theorem eorAbs (abs : Word) : Statement (.eorAbs abs) := ⟨_, _, rfl, rfl⟩
theorem eorAbsY (abs : Word) : Statement (.eorAbsY abs) := ⟨_, _, rfl, rfl⟩
theorem eorIndX (dp : Byte) : Statement (.eorIndX dp) := ⟨_, _, rfl, rfl⟩
theorem eorIndY (dp : Byte) : Statement (.eorIndY dp) := ⟨_, _, rfl, rfl⟩
theorem eorAtX : Statement .eorAtX := ⟨_, _, rfl, rfl⟩
theorem ldaImm (imm : Byte) : Statement (.ldaImm imm) := ⟨_, _, rfl, rfl⟩
theorem ldaDp (dp : Byte) : Statement (.ldaDp dp) := ⟨_, _, rfl, rfl⟩
theorem ldaDpX (dp : Byte) : Statement (.ldaDpX dp) := ⟨_, _, rfl, rfl⟩
theorem ldaAbs (abs : Word) : Statement (.ldaAbs abs) := ⟨_, _, rfl, rfl⟩
theorem ldaAbsY (abs : Word) : Statement (.ldaAbsY abs) := ⟨_, _, rfl, rfl⟩
theorem ldaIndX (dp : Byte) : Statement (.ldaIndX dp) := ⟨_, _, rfl, rfl⟩
theorem ldaIndY (dp : Byte) : Statement (.ldaIndY dp) := ⟨_, _, rfl, rfl⟩
theorem ldaAtX : Statement .ldaAtX := ⟨_, _, rfl, rfl⟩
theorem staDp (dp : Byte) : Statement (.staDp dp) := ⟨_, _, rfl, rfl⟩
theorem staDpX (dp : Byte) : Statement (.staDpX dp) := ⟨_, _, rfl, rfl⟩
theorem staAbs (abs : Word) : Statement (.staAbs abs) := ⟨_, _, rfl, rfl⟩
theorem staAbsY (abs : Word) : Statement (.staAbsY abs) := ⟨_, _, rfl, rfl⟩
theorem staIndX (dp : Byte) : Statement (.staIndX dp) := ⟨_, _, rfl, rfl⟩
theorem staIndY (dp : Byte) : Statement (.staIndY dp) := ⟨_, _, rfl, rfl⟩
theorem staAtX : Statement .staAtX := ⟨_, _, rfl, rfl⟩
theorem ldm (dp : Byte) (imm : Byte) : Statement (.ldm dp imm) := ⟨_, _, rfl, rfl⟩
theorem ldaAtXInc : Statement .ldaAtXInc := ⟨_, _, rfl, rfl⟩
theorem staAtXInc : Statement .staAtXInc := ⟨_, _, rfl, rfl⟩
theorem aslA : Statement .aslA := ⟨_, _, rfl, rfl⟩
theorem aslDp (dp : Byte) : Statement (.aslDp dp) := ⟨_, _, rfl, rfl⟩
theorem aslDpX (dp : Byte) : Statement (.aslDpX dp) := ⟨_, _, rfl, rfl⟩
theorem aslAbs (abs : Word) : Statement (.aslAbs abs) := ⟨_, _, rfl, rfl⟩
theorem rolA : Statement .rolA := ⟨_, _, rfl, rfl⟩
theorem rolDp (dp : Byte) : Statement (.rolDp dp) := ⟨_, _, rfl, rfl⟩
theorem rolDpX (dp : Byte) : Statement (.rolDpX dp) := ⟨_, _, rfl, rfl⟩
theorem rolAbs (abs : Word) : Statement (.rolAbs abs) := ⟨_, _, rfl, rfl⟩
theorem lsrA : Statement .lsrA := ⟨_, _, rfl, rfl⟩
theorem lsrDp (dp : Byte) : Statement (.lsrDp dp) := ⟨_, _, rfl, rfl⟩
theorem lsrDpX (dp : Byte) : Statement (.lsrDpX dp) := ⟨_, _, rfl, rfl⟩
theorem lsrAbs (abs : Word) : Statement (.lsrAbs abs) := ⟨_, _, rfl, rfl⟩
theorem rorA : Statement .rorA := ⟨_, _, rfl, rfl⟩
theorem rorDp (dp : Byte) : Statement (.rorDp dp) := ⟨_, _, rfl, rfl⟩
theorem rorDpX (dp : Byte) : Statement (.rorDpX dp) := ⟨_, _, rfl, rfl⟩
theorem rorAbs (abs : Word) : Statement (.rorAbs abs) := ⟨_, _, rfl, rfl⟩
theorem incA : Statement .incA := ⟨_, _, rfl, rfl⟩
theorem incDp (dp : Byte) : Statement (.incDp dp) := ⟨_, _, rfl, rfl⟩
theorem incDpX (dp : Byte) : Statement (.incDpX dp) := ⟨_, _, rfl, rfl⟩
theorem incAbs (abs : Word) : Statement (.incAbs abs) := ⟨_, _, rfl, rfl⟩
theorem decA : Statement .decA := ⟨_, _, rfl, rfl⟩
theorem decDp (dp : Byte) : Statement (.decDp dp) := ⟨_, _, rfl, rfl⟩
theorem decDpX (dp : Byte) : Statement (.decDpX dp) := ⟨_, _, rfl, rfl⟩
theorem decAbs (abs : Word) : Statement (.decAbs abs) := ⟨_, _, rfl, rfl⟩
theorem incX : Statement .incX := ⟨_, _, rfl, rfl⟩
theorem incY : Statement .incY := ⟨_, _, rfl, rfl⟩
theorem decX : Statement .decX := ⟨_, _, rfl, rfl⟩
theorem decY : Statement .decY := ⟨_, _, rfl, rfl⟩
theorem cmpxImm (imm : Byte) : Statement (.cmpxImm imm) := ⟨_, _, rfl, rfl⟩
theorem cmpxDp (dp : Byte) : Statement (.cmpxDp dp) := ⟨_, _, rfl, rfl⟩
theorem cmpxAbs (abs : Word) : Statement (.cmpxAbs abs) := ⟨_, _, rfl, rfl⟩
theorem cmpyImm (imm : Byte) : Statement (.cmpyImm imm) := ⟨_, _, rfl, rfl⟩
theorem cmpyDp (dp : Byte) : Statement (.cmpyDp dp) := ⟨_, _, rfl, rfl⟩
theorem cmpyAbs (abs : Word) : Statement (.cmpyAbs abs) := ⟨_, _, rfl, rfl⟩
theorem comDp (dp : Byte) : Statement (.comDp dp) := ⟨_, _, rfl, rfl⟩
theorem daa : Statement .daa := ⟨_, _, rfl, rfl⟩
theorem das : Statement .das := ⟨_, _, rfl, rfl⟩
theorem div : Statement .div := ⟨_, _, rfl, rfl⟩
theorem mul : Statement .mul := ⟨_, _, rfl, rfl⟩
theorem tstDp (dp : Byte) : Statement (.tstDp dp) := ⟨_, _, rfl, rfl⟩
theorem xcn : Statement .xcn := ⟨_, _, rfl, rfl⟩
theorem ldxImm (imm : Byte) : Statement (.ldxImm imm) := ⟨_, _, rfl, rfl⟩
theorem ldxDp (dp : Byte) : Statement (.ldxDp dp) := ⟨_, _, rfl, rfl⟩
theorem ldxDpY (dp : Byte) : Statement (.ldxDpY dp) := ⟨_, _, rfl, rfl⟩
theorem ldxAbs (abs : Word) : Statement (.ldxAbs abs) := ⟨_, _, rfl, rfl⟩
theorem ldyImm (imm : Byte) : Statement (.ldyImm imm) := ⟨_, _, rfl, rfl⟩
theorem ldyDp (dp : Byte) : Statement (.ldyDp dp) := ⟨_, _, rfl, rfl⟩
theorem ldyDpX (dp : Byte) : Statement (.ldyDpX dp) := ⟨_, _, rfl, rfl⟩
theorem ldyAbs (abs : Word) : Statement (.ldyAbs abs) := ⟨_, _, rfl, rfl⟩
theorem stxDp (dp : Byte) : Statement (.stxDp dp) := ⟨_, _, rfl, rfl⟩
theorem stxDpY (dp : Byte) : Statement (.stxDpY dp) := ⟨_, _, rfl, rfl⟩
theorem stxAbs (abs : Word) : Statement (.stxAbs abs) := ⟨_, _, rfl, rfl⟩
theorem styDp (dp : Byte) : Statement (.styDp dp) := ⟨_, _, rfl, rfl⟩
theorem styDpX (dp : Byte) : Statement (.styDpX dp) := ⟨_, _, rfl, rfl⟩
theorem styAbs (abs : Word) : Statement (.styAbs abs) := ⟨_, _, rfl, rfl⟩
theorem tax : Statement .tax := ⟨_, _, rfl, rfl⟩
theorem tay : Statement .tay := ⟨_, _, rfl, rfl⟩
theorem tspx : Statement .tspx := ⟨_, _, rfl, rfl⟩
theorem txa : Statement .txa := ⟨_, _, rfl, rfl⟩
theorem txsp : Statement .txsp := ⟨_, _, rfl, rfl⟩
theorem tya : Statement .tya := ⟨_, _, rfl, rfl⟩
theorem xax : Statement .xax := ⟨_, _, rfl, rfl⟩
theorem xay : Statement .xay := ⟨_, _, rfl, rfl⟩
theorem xmaDp (dp : Byte) : Statement (.xmaDp dp) := ⟨_, _, rfl, rfl⟩
theorem xmaDpX (dp : Byte) : Statement (.xmaDpX dp) := ⟨_, _, rfl, rfl⟩
theorem xmaAtX : Statement .xmaAtX := ⟨_, _, rfl, rfl⟩
theorem xyx : Statement .xyx := ⟨_, _, rfl, rfl⟩
theorem addwDp (dp : Byte) : Statement (.addwDp dp) := ⟨_, _, rfl, rfl⟩
theorem cmpwDp (dp : Byte) : Statement (.cmpwDp dp) := ⟨_, _, rfl, rfl⟩
theorem decwDp (dp : Byte) : Statement (.decwDp dp) := ⟨_, _, rfl, rfl⟩
theorem incwDp (dp : Byte) : Statement (.incwDp dp) := ⟨_, _, rfl, rfl⟩
theorem ldyaDp (dp : Byte) : Statement (.ldyaDp dp) := ⟨_, _, rfl, rfl⟩
theorem styaDp (dp : Byte) : Statement (.styaDp dp) := ⟨_, _, rfl, rfl⟩
theorem subwDp (dp : Byte) : Statement (.subwDp dp) := ⟨_, _, rfl, rfl⟩
theorem and1 (b1 : Byte) (b2 : Byte) : Statement (.and1 b1 b2) := ⟨_, _, rfl, rfl⟩
theorem and1b (b1 : Byte) (b2 : Byte) : Statement (.and1b b1 b2) := ⟨_, _, rfl, rfl⟩
theorem eor1 (b1 : Byte) (b2 : Byte) : Statement (.eor1 b1 b2) := ⟨_, _, rfl, rfl⟩
theorem eor1b (b1 : Byte) (b2 : Byte) : Statement (.eor1b b1 b2) := ⟨_, _, rfl, rfl⟩
theorem ldc (b1 : Byte) (b2 : Byte) : Statement (.ldc b1 b2) := ⟨_, _, rfl, rfl⟩
theorem ldcb (b1 : Byte) (b2 : Byte) : Statement (.ldcb b1 b2) := ⟨_, _, rfl, rfl⟩
theorem not1 (b1 : Byte) (b2 : Byte) : Statement (.not1 b1 b2) := ⟨_, _, rfl, rfl⟩
theorem or1 (b1 : Byte) (b2 : Byte) : Statement (.or1 b1 b2) := ⟨_, _, rfl, rfl⟩
theorem or1b (b1 : Byte) (b2 : Byte) : Statement (.or1b b1 b2) := ⟨_, _, rfl, rfl⟩
theorem stc (b1 : Byte) (b2 : Byte) : Statement (.stc b1 b2) := ⟨_, _, rfl, rfl⟩
theorem seta1 (b1 : Byte) : Statement (.seta1 b1) := ⟨_, _, rfl, rfl⟩
theorem clra1 (b1 : Byte) : Statement (.clra1 b1) := ⟨_, _, rfl, rfl⟩
theorem bitDp (dp : Byte) : Statement (.bitDp dp) := ⟨_, _, rfl, rfl⟩
theorem bitAbs (abs : Word) : Statement (.bitAbs abs) := ⟨_, _, rfl, rfl⟩
theorem set1 (bit : BitVec 3) (dp : Byte) : Statement (.set1 bit dp) :=
  ⟨_, _, rfl, (of_column _ 1 (eight ⟨rfl, rfl, rfl, rfl, rfl, rfl, rfl, rfl⟩) bit).symm⟩
theorem clr1 (bit : BitVec 3) (dp : Byte) : Statement (.clr1 bit dp) :=
  ⟨_, _, rfl, (of_column _ 1 (eight ⟨rfl, rfl, rfl, rfl, rfl, rfl, rfl, rfl⟩) bit).symm⟩
theorem clrc : Statement .clrc := ⟨_, _, rfl, rfl⟩
theorem clrg : Statement .clrg := ⟨_, _, rfl, rfl⟩
theorem clrv : Statement .clrv := ⟨_, _, rfl, rfl⟩
theorem setc : Statement .setc := ⟨_, _, rfl, rfl⟩
theorem setg : Statement .setg := ⟨_, _, rfl, rfl⟩
theorem tclr1Abs (abs : Word) : Statement (.tclr1Abs abs) := ⟨_, _, rfl, rfl⟩
theorem tset1Abs (abs : Word) : Statement (.tset1Abs abs) := ⟨_, _, rfl, rfl⟩
theorem bbcA (bit : BitVec 3) (rel : Byte) : Statement (.bbcA bit rel) :=
  ⟨_, _, rfl, (of_column _ 1 (eight ⟨rfl, rfl, rfl, rfl, rfl, rfl, rfl, rfl⟩) bit).symm⟩
theorem bbcDp (bit : BitVec 3) (dp : Byte) (rel : Byte) : Statement (.bbcDp bit dp rel) :=
  ⟨_, _, rfl, (of_column _ 2 (eight ⟨rfl, rfl, rfl, rfl, rfl, rfl, rfl, rfl⟩) bit).symm⟩
theorem bbsA (bit : BitVec 3) (rel : Byte) : Statement (.bbsA bit rel) :=
  ⟨_, _, rfl, (of_column _ 1 (eight ⟨rfl, rfl, rfl, rfl, rfl, rfl, rfl, rfl⟩) bit).symm⟩
theorem bbsDp (bit : BitVec 3) (dp : Byte) (rel : Byte) : Statement (.bbsDp bit dp rel) :=
  ⟨_, _, rfl, (of_column _ 2 (eight ⟨rfl, rfl, rfl, rfl, rfl, rfl, rfl, rfl⟩) bit).symm⟩
theorem bcc (rel : Byte) : Statement (.bcc rel) := ⟨_, _, rfl, rfl⟩
theorem bcs (rel : Byte) : Statement (.bcs rel) := ⟨_, _, rfl, rfl⟩
theorem beq (rel : Byte) : Statement (.beq rel) := ⟨_, _, rfl, rfl⟩
theorem bmi (rel : Byte) : Statement (.bmi rel) := ⟨_, _, rfl, rfl⟩
theorem bne (rel : Byte) : Statement (.bne rel) := ⟨_, _, rfl, rfl⟩
theorem bpl (rel : Byte) : Statement (.bpl rel) := ⟨_, _, rfl, rfl⟩
theorem bvc (rel : Byte) : Statement (.bvc rel) := ⟨_, _, rfl, rfl⟩
theorem bvs (rel : Byte) : Statement (.bvs rel) := ⟨_, _, rfl, rfl⟩
theorem bra (rel : Byte) : Statement (.bra rel) := ⟨_, _, rfl, rfl⟩
theorem callAbs (abs : Word) : Statement (.callAbs abs) := ⟨_, _, rfl, rfl⟩
theorem callIndDp (dp : Byte) : Statement (.callIndDp dp) := ⟨_, _, rfl, rfl⟩
theorem cbneDp (dp : Byte) (rel : Byte) : Statement (.cbneDp dp rel) := ⟨_, _, rfl, rfl⟩
theorem cbneDpX (dp : Byte) (rel : Byte) : Statement (.cbneDpX dp rel) := ⟨_, _, rfl, rfl⟩
theorem dbneDp (dp : Byte) (rel : Byte) : Statement (.dbneDp dp rel) := ⟨_, _, rfl, rfl⟩
theorem dbneY (rel : Byte) : Statement (.dbneY rel) := ⟨_, _, rfl, rfl⟩
theorem jmpAbs (abs : Word) : Statement (.jmpAbs abs) := ⟨_, _, rfl, rfl⟩
theorem jmpIndAbs (abs : Word) : Statement (.jmpIndAbs abs) := ⟨_, _, rfl, rfl⟩
theorem jmpIndDp (dp : Byte) : Statement (.jmpIndDp dp) := ⟨_, _, rfl, rfl⟩
theorem pcall (upage : Byte) : Statement (.pcall upage) := ⟨_, _, rfl, rfl⟩
theorem tcall (n : BitVec 4) : Statement (.tcall n) := by
  refine ⟨_, _, rfl, ?_⟩
  have h : n = 0 ∨ n = 1 ∨ n = 2 ∨ n = 3 ∨ n = 4 ∨ n = 5 ∨ n = 6 ∨ n = 7 ∨ n = 8 ∨ n = 9 ∨ n = 10 ∨ n = 11 ∨ n = 12 ∨
      n = 13 ∨ n = 14 ∨ n = 15 := by revert n; decide
  rcases h with rfl | rfl | rfl | rfl | rfl | rfl | rfl | rfl | rfl | rfl | rfl | rfl | rfl | rfl | rfl | rfl <;> rfl
theorem brk : Statement .brk := ⟨_, _, rfl, rfl⟩
theorem di : Statement .di := ⟨_, _, rfl, rfl⟩
theorem ei : Statement .ei := ⟨_, _, rfl, rfl⟩
theorem nop : Statement .nop := ⟨_, _, rfl, rfl⟩
theorem popA : Statement .popA := ⟨_, _, rfl, rfl⟩
theorem popX : Statement .popX := ⟨_, _, rfl, rfl⟩
theorem popY : Statement .popY := ⟨_, _, rfl, rfl⟩
theorem popPsw : Statement .popPsw := ⟨_, _, rfl, rfl⟩
theorem pushA : Statement .pushA := ⟨_, _, rfl, rfl⟩
theorem pushX : Statement .pushX := ⟨_, _, rfl, rfl⟩
theorem pushY : Statement .pushY := ⟨_, _, rfl, rfl⟩
theorem pushPsw : Statement .pushPsw := ⟨_, _, rfl, rfl⟩
theorem ret : Statement .ret := ⟨_, _, rfl, rfl⟩
theorem reti : Statement .reti := ⟨_, _, rfl, rfl⟩
theorem stop : Statement .stop := ⟨_, _, rfl, rfl⟩

end Sys2Proof.Laws.EncodeLength
end

