-- ==== Sys2Proof/Laws/Shapes.lean ====
section
/-! SUPPORT. The meaning of every instruction of a shape said once (an equation per shape), what the shared instruction
shapes can do, and the flag and bit computations as the rules of spec/ word them. Proofs cite these and unfold no shape. -/

namespace Sys2Proof.Machine

/-! ## The meaning of a shape -/

/-- The meaning of an operation on a source operand. -/
def SourceOp.meaning (op : SourceOp) (src : Source) (s : State) : Result :=
  match op with
  | .adc => accumulate adcByte src s
  | .sbc => accumulate sbcByte src s
  | .and => accumulate andByte src s
  | .or => accumulate orByte src s
  | .eor => accumulate eorByte src s
  | .lda => accumulate ldaByte src s
  | .cmp => testSource (compare8 s.a) src s
  | .cmpx => testSource (compare8 s.x) src s
  | .cmpy => testSource (compare8 s.y) src s
  | .tst => testSource setNZ8 src s
  | .bit => testSource (bitTest s.a) src s
  | .ldx => loadX src s
  | .ldy => loadY src s

theorem exec_source {i : Instr} {op : SourceOp} {src : Source} (s : State) (h : sourceForm i = some (op, src)) :
    exec i s = op.meaning src s := by
  cases i <;> first | (cases h; done) | (cases h; rfl)

/-- The meaning of an operation on a byte read and written. -/
def RmwOp.meaning (op : RmwOp) (o : Operand) (s : State) : Result :=
  match op with
  | .asl => modify aslByte o s
  | .rol => modify rolByte o s
  | .lsr => modify lsrByte o s
  | .ror => modify rorByte o s
  | .inc => modify incByte o s
  | .dec => modify decByte o s
  | .com => modify comByte o s
  | .tclr1 => modify (tclrByte s.a) o s
  | .tset1 => modify (tsetByte s.a) o s
  | .xma => exchangeA o s
  | .set1 b => modify (fun v psw => (v ||| bitMask b, psw)) o s
  | .clr1 b => modify (fun v psw => (v &&& ~~~bitMask b, psw)) o s
  | .not1 b => modify (fun v psw => (v ^^^ bitMask b, psw)) o s
  | .stc b => modify (fun v psw => (if flag .c psw then v ||| bitMask b else v &&& ~~~bitMask b, psw)) o s

theorem exec_rmw {i : Instr} {op : RmwOp} {o : Operand} (s : State) (h : rmwForm i = some (op, o)) :
    exec i s = op.meaning o s := by
  cases i <;> first | (cases h; done) | (cases h; rfl)

theorem exec_store {i : Instr} {v : StoreValue} {o : Operand} (s : State) (h : storeForm i = some (v, o)) :
    exec i s = store (v.of s) o s := by
  cases i <;> first | (cases h; done) | (cases h; rfl)

theorem exec_carry {i : Instr} {op : CarryOp} {b1 b2 : Byte} (s : State) (h : carryForm i = some (op, b1, b2)) :
    exec i s = carryWith op.result b1 b2 s := by
  have he : (fun c m => c ^^ !m) = CarryOp.eor1b.result := by funext c m; cases c <;> cases m <;> rfl
  cases i <;> first | (cases h; done) | (cases h; first | rfl | simp only [exec, execEor1b, he])

theorem exec_branch {i : Instr} {cond : Option (Flag × Bool)} {rel : Byte} (s : State)
    (h : branchForm i = some (cond, rel)) :
    exec i s = .next (branchIf (cond.all (fun p => flag p.1 s.psw == p.2)) rel s) := by
  cases i <;> first
    | (cases h; done)
    | (cases h; simp [exec, execBcc, execBcs, execBeq, execBmi, execBne, execBpl, execBvc, execBvs, execBra])

theorem exec_byteBranch {i : Instr} {cond : Byte → Byte → Bool} {o : Operand} {rel : Byte} (s : State)
    (h : byteBranchForm i = some (cond, o, rel)) :
    exec i s = (readSource (.mem o) s).done fun m s1 => branchIf (cond s.a m) rel s1 := by
  cases i <;> first | (cases h; done) | (cases h; rfl) | (cases h; simp [exec, execCbneDp, execCbneDpX]; rfl)

/-! ## Flags -/

theorem nzOnly_setNZ8 (r p : Byte) : nzOnly r p (setNZ8 r p) := by
  refine ⟨by simp, by simp [beq_eq_decide], fun f hf => ?_⟩
  simp at hf
  simp [hf]

theorem nzcOnly_setNZ8 (r p : Byte) (c : Bool) : nzcOnly r c p (setNZ8 r (setFlag .c c p)) := by
  refine ⟨by simp, by simp [beq_eq_decide], by simp, fun f hf => ?_⟩
  simp at hf
  simp [hf]

/-- The sum of R143. -/
theorem add8_r (a m : Byte) (c : Bool) : (add8 a m c).r = a + m + BitVec.ofNat 8 c.toNat := by
  apply BitVec.eq_of_toNat_eq
  simp [add8]

/-- The overflow of R143 is that of the signed sum. -/
theorem add8_v (a m : Byte) (c : Bool) :
    (add8 a m c).v = decide (a.toInt + m.toInt + (c.toNat : Int) < -128 ∨ 127 < a.toInt + m.toInt + (c.toNat : Int)) := by
  simp only [add8, BitVec.msb_eq_decide, BitVec.toInt_eq_toNat_cond]
  have := a.isLt
  have := m.isLt
  have : c.toNat ≤ 1 := by cases c <;> simp
  have e : (BitVec.ofNat 8 (a.toNat + m.toNat + c.toNat)).toNat = (a.toNat + m.toNat + c.toNat) % 256 := by simp
  rw [e, Bool.eq_iff_iff]
  simp
  split <;> split <;> omega

/-- The difference of R142. -/
theorem sub8_r (a m : Byte) (c : Bool) : (sub8 a m c).r = a - m - BitVec.ofNat 8 (!c).toNat := by
  apply BitVec.eq_of_toNat_eq
  have := a.isLt
  have := m.isLt
  cases c <;> simp [sub8] <;> omega

/-- The overflow of R142 is that of the signed difference. -/
theorem sub8_v (a m : Byte) (c : Bool) :
    (sub8 a m c).v =
      decide (a.toInt - m.toInt - ((!c).toNat : Int) < -128 ∨ 127 < a.toInt - m.toInt - ((!c).toNat : Int)) := by
  simp only [sub8, BitVec.msb_eq_decide, BitVec.toInt_eq_toNat_cond]
  have := a.isLt
  have := m.isLt
  rw [Bool.eq_iff_iff]
  cases c <;> simp <;> split <;> split <;> omega

/-- What `compare8` does to the flags. -/
theorem compare8_flags (r m p : Byte) :
    flag .n (compare8 r m p) = (r - m).msb ∧ flag .z (compare8 r m p) = decide (r = m) ∧
      flag .c (compare8 r m p) = decide (m.toNat ≤ r.toNat) ∧ flagsKept [.n, .z, .c] p (compare8 r m p) := by
  have h := sub8_r r m true
  simp at h
  refine ⟨by simp [compare8, h], ?_, ?_, fun f hf => ?_⟩
  · simp [compare8, h, beq_eq_decide]
    bv_omega
  · simp [compare8]
    simp [sub8]
  · simp at hf
    simp [compare8, hf]

/-! ## Bytes and bits -/

theorem msb_eq (v : Byte) : v.msb = decide (128 ≤ v.toNat) := by simp [BitVec.msb_eq_decide]

theorem aslByte_eq (v p : Byte) :
    aslByte v p = (BitVec.ofNat 8 (2 * v.toNat % 256),
      setNZ8 (BitVec.ofNat 8 (2 * v.toNat % 256)) (setFlag .c (decide (128 ≤ v.toNat)) p)) := by
  have : v <<< 1 = BitVec.ofNat 8 (2 * v.toNat % 256) := by
    apply BitVec.eq_of_toNat_eq
    simp [BitVec.toNat_shiftLeft, Nat.shiftLeft_eq]
    omega
  simp [aslByte, this, msb_eq]

theorem lsrByte_eq (v p : Byte) :
    lsrByte v p = (BitVec.ofNat 8 (v.toNat / 2),
      setNZ8 (BitVec.ofNat 8 (v.toNat / 2)) (setFlag .c (decide (v.toNat % 2 = 1)) p)) := by
  have : v >>> 1 = BitVec.ofNat 8 (v.toNat / 2) := by
    apply BitVec.eq_of_toNat_eq
    simp [Nat.shiftRight_eq_div_pow]
    have := v.isLt
    omega
  simp [lsrByte, this, BitVec.getLsbD, Nat.testBit_zero]

theorem rotateLeft_eq : ∀ (v : Byte) (c : Bool),
    (v <<< 1) ||| (BitVec.ofBool c).setWidth 8 = BitVec.ofNat 8 (2 * v.toNat % 256 + c.toNat) := by decide

theorem rotateRight_eq : ∀ (v : Byte) (c : Bool),
    (v >>> 1) ||| (BitVec.ofBool c ++ 0#7) = BitVec.ofNat 8 (v.toNat / 2 + 128 * c.toNat) := by decide

theorem rolByte_eq (v p : Byte) :
    rolByte v p = (BitVec.ofNat 8 (2 * v.toNat % 256 + (flag .c p).toNat),
      setNZ8 (BitVec.ofNat 8 (2 * v.toNat % 256 + (flag .c p).toNat)) (setFlag .c (decide (128 ≤ v.toNat)) p)) := by
  simp only [rolByte, rotateLeft_eq, msb_eq]

theorem rorByte_eq (v p : Byte) :
    rorByte v p = (BitVec.ofNat 8 (v.toNat / 2 + 128 * (flag .c p).toNat),
      setNZ8 (BitVec.ofNat 8 (v.toNat / 2 + 128 * (flag .c p).toNat)) (setFlag .c (decide (v.toNat % 2 = 1)) p)) := by
  simp only [rorByte, rotateRight_eq]
  simp [BitVec.getLsbD, Nat.testBit_zero]

theorem bitMask_getLsbD : ∀ (b : BitVec 3) (j : Nat), j < 8 → (bitMask b).getLsbD j = decide (j = b.toNat) := by decide

theorem set_getLsbD (v : Byte) (b : BitVec 3) (j : Nat) (hj : j < 8) :
    (v ||| bitMask b).getLsbD j = if j = b.toNat then true else v.getLsbD j := by
  rw [BitVec.getLsbD_or, bitMask_getLsbD b j hj]
  by_cases h : j = b.toNat <;> simp [h]

theorem clear_getLsbD (v : Byte) (b : BitVec 3) (j : Nat) (hj : j < 8) :
    (v &&& ~~~bitMask b).getLsbD j = if j = b.toNat then false else v.getLsbD j := by
  rw [BitVec.getLsbD_and, BitVec.getLsbD_not, bitMask_getLsbD b j hj]
  by_cases h : j = b.toNat <;> simp [h]
  intro
  omega

theorem complement_getLsbD (v : Byte) (b : BitVec 3) (j : Nat) (hj : j < 8) :
    (v ^^^ bitMask b).getLsbD j = if j = b.toNat then !v.getLsbD b.toNat else v.getLsbD j := by
  rw [BitVec.getLsbD_xor, bitMask_getLsbD b j hj]
  by_cases h : j = b.toNat <;> simp [h]

theorem xcn_eq : ∀ a : Byte,
    (a.extractLsb' 0 4 ++ a.extractLsb' 4 4 : Byte).toNat = a.toNat % 16 * 16 + a.toNat / 16 := by decide

/-- A displacement is signed and the sum is modulo 65536. -/
theorem add_sext16 (pc : Word) (rel : Byte) : pc + sext16 rel = BitVec.ofInt 16 ((pc.toNat : Int) + rel.toInt) := by
  simp only [sext16, BitVec.signExtend]
  rw [BitVec.ofInt_add]
  congr 1
  simp

/-! ## Shapes -/

/-- A state that an instruction made from reads and CPU registers only. -/
theorem onlyCpu_of {s s1 t : State} {c : Cpu} {k : Nat} (h1 : s1 = s.spend k) (h : t = s1.withCpu c) : onlyCpu c s t := by
  subst h1
  subst h
  exact ⟨⟨k, rfl⟩, fun _ => rfl⟩

theorem memWrite_faults {a : Word} {v : Byte} {s : State} (h : writable s.device a = false) :
    ∃ e, memWrite a v s = .fault e := by
  unfold memWrite
  unfold writable at h
  split <;> simp_all

theorem memRead_faults {a : Word} {s : State} (h : readable s.device a = false) : ∃ e, memRead a s = .fault e := by
  unfold memRead
  unfold readable at h
  split <;> simp_all

theorem rmwByte_faults {a : Word} (f : Byte → Byte) {s : State} (h : modifiable s.device a = false) :
    ∃ e, rmwByte a f s = .fault e := by
  unfold rmwByte
  unfold modifiable at h
  split at h
  · cases h
  · rename_i r hr
    simp at h
    simp [rmwCheck, hr, h]
  · rename_i hr
    have hd : (betweenReadAndWrite s).device = s.device := (quiet_betweenReadAndWrite _).2.2.2.1
    simp [rmwCheck, hr, memRead, memWrite, hd]
  · rename_i hr
    simp [rmwCheck, hr, memRead]

/-- A read-modify-write stores one byte and changes no CPU register. -/
theorem rewrites_stored {ea : Word} {v r : Byte} {k : Nat} {s t : State} (h : rewrites ea v r (s.spend k) t) :
    storedOnly ea r s.cpu s t := by
  obtain ⟨h1, h2, h3, h4, h5⟩ := rewrites_kept h
  refine ⟨h1, h2, h3, h4, fun hr => ⟨h5 hr, fun hm => ?_⟩⟩
  obtain ⟨j, hr', hw⟩ := h
  obtain ⟨-, -, -, -, -, -, h6⟩ := memWrite_ok hw
  rw [(h6 hr).2, betweenReadAndWrite_none (by simpa using hm)]
  rfl

theorem storedOnly_withPsw {ea : Word} {r : Byte} {s t : State} (h : storedOnly ea r s.cpu s t) (p : Byte) :
    storedOnly ea r { s.cpu with psw := p } s (t.withPsw p) := by
  obtain ⟨h1, h2, h3, h4, h5⟩ := h
  refine ⟨?_, h2, h3, h4, h5⟩
  simp [State.cpu] at h1 ⊢
  simp [h1]

/-- `modify` of a byte that may be modified answers. -/
theorem modify_answers (f : Byte → Byte → Byte × Byte) {o : Operand} {s s1 : State} {ea : Word}
    (he : effectiveAddress o s = .ok ea s1) (hm : modifiable s.device ea = true) :
    ∃ v s2, rewrites ea v (f v s.psw).1 s1 s2 ∧ modify f o s = .next (s2.withPsw (f v s.psw).2) ∧
      storedOnly ea (f v s.psw).1 s.cpu s s2 := by
  obtain ⟨k, rfl⟩ := effectiveAddress_ok he
  obtain ⟨v, t, h1, h2⟩ := rmwByte_answers (a := ea) (fun v => (f v s.psw).1) (s := s.spend k) hm
  exact ⟨v, t, h2, by simp [modify, he, h1], rewrites_stored h2⟩

theorem modify_faults (f : Byte → Byte → Byte × Byte) {o : Operand} {s s1 : State} {ea : Word}
    (he : effectiveAddress o s = .ok ea s1) (hm : modifiable s.device ea = false) : ∃ e, modify f o s = .fault e := by
  obtain ⟨k, rfl⟩ := effectiveAddress_ok he
  obtain ⟨e, h1⟩ := rmwByte_faults (a := ea) (fun v => (f v s.psw).1) (s := s.spend k) hm
  exact ⟨e, by simp [modify, he, h1]⟩

/-! ## Pushes -/

/-- Bytes pushed one after the other. -/
def pushAll : List Byte → State → Res Unit
  | [], s => .ok () s
  | v :: rest, s => (push8 v s).bind fun _ s1 => pushAll rest s1

theorem push8_ok {v : Byte} {s t : State} {u : Unit} (h : push8 v s = .ok u t) :
    ∃ s1, memWrite (zext16 s.sp) v s = .ok () s1 ∧ t = s1.withSp (s.sp - 1) := by
  obtain ⟨_, s1, h1, h2⟩ := Res.bind_eq_ok.mp h
  cases h2
  exact ⟨s1, h1, rfl⟩

theorem pushAll_ok : ∀ {bytes : List Byte} {s t : State} {u : Unit}, pushAll bytes s = .ok u t → pushed bytes s t
  | [], s, t, u, h => by cases h; rfl
  | v :: rest, s, t, u, h => by
    obtain ⟨_, s1, h1, h2⟩ := Res.bind_eq_ok.mp h
    obtain ⟨s2, h3, rfl⟩ := push8_ok h1
    exact ⟨s2, h3, pushAll_ok h2⟩

theorem sp_sub (x : Byte) (k : Nat) : x - 1 - BitVec.ofNat 8 k = x - BitVec.ofNat 8 (k + 1) := by
  apply BitVec.eq_of_toNat_eq
  have := x.isLt
  simp
  omega

theorem stackByte_inj (s : State) {j k : Nat} (hj : j < 3) (hk : k < 3) (h : stackByte s j = stackByte s k) : j = k := by
  simp only [stackByte, zext16] at h
  have h := congrArg BitVec.toNat h
  have := s.sp.isLt
  simp at h
  omega

theorem pushAll_answers : ∀ {bytes : List Byte} {s : State}, pushable bytes.length s → ∃ t, pushAll bytes s = .ok () t
  | [], s, _ => ⟨s, rfl⟩
  | v :: rest, s, h => by
    have h0 := h 0 (by simp)
    obtain ⟨s1, h1⟩ := memWrite_answers (v := v) (s := s) (by simpa [stackByte] using h0)
    obtain ⟨-, hc, -, -, hk, -⟩ := memWrite_ok h1
    have : pushable rest.length (s1.withSp (s.sp - 1)) := by
      intro k hk'
      have := h (k + 1) (by simp; omega)
      simp only [stackByte, State.withSp_sp, State.withSp_device, hk.1] at this ⊢
      rw [sp_sub]
      exact this
    obtain ⟨t, ht⟩ := pushAll_answers this
    exact ⟨t, by simp [pushAll, push8, h1]; exact ht⟩

theorem pushAll_faults : ∀ {bytes : List Byte} {s : State}, ¬ pushable bytes.length s → ∃ e, pushAll bytes s = .fault e
  | [], s, h => absurd (fun k hk => absurd hk (by simp)) h
  | v :: rest, s, h => by
    by_cases h0 : writable s.device (zext16 s.sp) = true
    · obtain ⟨s1, h1⟩ := memWrite_answers (v := v) (s := s) h0
      obtain ⟨-, hc, -, -, hk, -⟩ := memWrite_ok h1
      have : ¬ pushable rest.length (s1.withSp (s.sp - 1)) := by
        intro hp
        apply h
        intro k hk'
        cases k with
        | zero => simpa [stackByte] using h0
        | succ k =>
          have := hp k (by simpa using hk')
          simp only [stackByte, State.withSp_sp, State.withSp_device, hk.1, sp_sub] at this ⊢
          exact this
      obtain ⟨e, he⟩ := pushAll_faults this
      exact ⟨e, by simp [pushAll, push8, h1]; exact he⟩
    · rw [Bool.not_eq_true] at h0
      obtain ⟨e, he⟩ := memWrite_faults (v := v) h0
      exact ⟨e, by simp [pushAll, push8, he]⟩

/-- Up to three pushed bytes lie at different addresses, so each reads back. -/
theorem pushed_stackedOnly : ∀ {bytes : List Byte} {s t : State}, bytes.length ≤ 3 → pushed bytes s t →
    stackedOnly bytes s t
  | [], s, t, _, h => by
    cases h
    exact ⟨by simp [State.cpu], rfl, ⟨rfl, rfl, rfl, rfl, rfl, rfl⟩, fun _ _ => rfl, by simp, fun _ => rfl⟩
  | v :: rest, s, t, hl, h => by
    obtain ⟨s1, h1, h2⟩ := h
    obtain ⟨a1, a2, a3, a4, a5, a6⟩ := pushed_stackedOnly (by simp at hl; omega) h2
    obtain ⟨-, b1, b2, b3, b4, b5, b6⟩ := memWrite_ok h1
    have hsb : ∀ k, stackByte (s1.withSp (s.sp - 1)) k = stackByte s (k + 1) := by
      intro k
      simp only [stackByte, State.withSp_sp, sp_sub]
    refine ⟨?_, a2.trans b2, ?_, ?_, ?_, ?_⟩
    · rw [a1]
      have e := sp_sub s.sp rest.length
      simp [State.cpu] at b1 ⊢
      exact ⟨b1.1, b1.2.1, b1.2.2.1, e, b1.2.2.2.2.1, b1.2.2.2.2.2⟩
    · obtain ⟨q1, q2, q3, q4, q5, q6⟩ := a3
      obtain ⟨r1, r2, r3, r4, r5, r6⟩ := b4
      exact ⟨q1.trans r1, q2.trans r2, q3.trans r3, q4.trans r4, q5.trans r5, q6.trans r6⟩
    · intro a ha
      rw [a4 a (fun ⟨k, hk, e⟩ => ha ⟨k + 1, by simpa using hk, by rw [e, hsb]⟩)]
      exact b5 a (fun e => ha ⟨0, by simp, by rw [e]; simp [stackByte]⟩)
    · intro k hk hr
      cases k with
      | zero =>
        rw [a4]
        · have h7 := (b6 (by simpa [stackByte] using hr)).1
          have e0 : stackByte s 0 = zext16 s.sp := by simp [stackByte]
          rw [e0]
          exact h7
        · rintro ⟨k, hk', e⟩
          rw [hsb] at e
          have := stackByte_inj s (by omega) (by simp at hl; omega) e
          omega
      | succ k =>
        have := a5 k (by simpa using hk) (by rw [hsb]; exact hr)
        rw [hsb] at this
        simpa using this
    · intro hr
      rw [a6 (fun k hk => by rw [hsb]; exact hr (k + 1) (by simpa using hk))]
      exact (b6 (by simpa [stackByte] using hr 0 (by simp))).2

theorem pushPc_eq (s : State) : pushPc s = pushAll [hiByte s.pc, loByte s.pc] s := by
  simp only [pushPc, pushWord, pushAll]
  cases push8 (hiByte s.pc) s with
  | fault e => rfl
  | ok u s1 => simp; cases push8 (loByte s.pc) s1 <;> rfl

theorem takeException_eq (image live : Byte) (vector : Word) (s : State) :
    takeException image live vector s = (pushAll [hiByte s.pc, loByte s.pc, image] s).bind
      fun _ s1 => .ok () ((s1.withPsw live).withPc (s1.vectorAt vector)) := by
  simp only [takeException, pushPc, pushWord, pushAll]
  cases push8 (hiByte s.pc) s with
  | fault e => rfl
  | ok u s1 =>
    simp
    cases push8 (loByte s.pc) s1 with
    | fault e => rfl
    | ok u s2 => simp; cases push8 image s2 <;> rfl

/-- Up to three bytes that may be pushed are pushed, and nothing else happens. -/
theorem pushAll_pushable {bytes : List Byte} {s : State} (hl : bytes.length ≤ 3) (h : pushable bytes.length s) :
    ∃ t, pushAll bytes s = .ok () t ∧ pushed bytes s t ∧ stackedOnly bytes s t := by
  obtain ⟨t, ht⟩ := pushAll_answers h
  exact ⟨t, ht, pushAll_ok ht, pushed_stackedOnly hl (pushAll_ok ht)⟩

/-- RAM may be pushed to. -/
theorem pushable_of_inRam {n : Nat} {s : State} (h : stackInRam n s) : pushable n s := fun k hk => by
  simp [writable, regionOf_ram.mpr (h k hk)]

/-- The program memory lies above the stack: pushes keep it. -/
theorem romByte_stacked {bytes : List Byte} {s t : State} (h : stackedOnly bytes s t) (a : Word)
    (ha : s.device.romBase ≤ a.toNat) : t.romByte a = s.romByte a := by
  obtain ⟨h1, h2, h3, h4, h5, h6⟩ := h
  have hrb : 0xF000 ≤ s.device.romBase := by cases s.device <;> decide
  have := h4 a (by
    rintro ⟨k, -, rfl⟩
    simp only [stackByte, zext16] at ha
    have := (s.sp - BitVec.ofNat 8 k).isLt
    simp only [BitVec.toNat_setWidth] at ha
    omega)
  have hd : t.device = s.device := h3.1
  have hreg : regionOf s.device a = .rom := by
    unfold regionOf
    rw [if_neg (by omega), if_pos ha]
  simpa [State.byteAt, hd, hreg] using this

theorem vectorAt_stacked {bytes : List Byte} {s t : State} (h : stackedOnly bytes s t) (a : Word)
    (ha : 0xFF00 ≤ a.toNat) (ha' : a.toNat < 0xFFFF) : t.vectorAt a = s.vectorAt a := by
  have hrb : s.device.romBase ≤ 0xF800 := by cases s.device <;> decide
  have e : (a + 1).toNat = a.toNat + 1 := by simp; omega
  simp only [State.vectorAt]
  rw [romByte_stacked h a (by omega), romByte_stacked h (a + 1) (by omega)]

end Sys2Proof.Machine
end

