-- ==== Sys2Proof/Laws/Writes.lean ====
section
/-! SUPPORT. An instruction writes no byte of memory outside `writtenBy`, so a reset that cuts it short leaves no other
byte open (spec/70_reset_and_hazards.md R557). -/

namespace Sys2Proof.Machine

/-- A meaning made of reads and CPU registers keeps every byte of memory. -/
theorem byteAt_done {α : Type} {r : Res α} {f : α → State → State} {s t : State}
    (h : r.done f = .next t) (hr : ∀ v s1, r = .ok v s1 → ∃ k, s1 = s.spend k)
    (hf : ∀ v s1 a, (f v s1).byteAt a = s1.byteAt a) (a : Word) : t.byteAt a = s.byteAt a := by
  obtain ⟨v, s1, h1, rfl⟩ := Res.done_eq_next.mp h
  obtain ⟨k, rfl⟩ := hr v s1 h1
  exact hf v _ a

/-- Two reads in a row use free values and change nothing else. -/
theorem bind_reads {α β : Type} {r : Res α} {f : α → State → Res β} {s t : State} {v : β}
    (h : r.bind f = .ok v t) (hr : ∀ v s1, r = .ok v s1 → ∃ k, s1 = s.spend k)
    (hf : ∀ v s1 w s2, f v s1 = .ok w s2 → ∃ k, s2 = s1.spend k) : ∃ k, t = s.spend k := by
  obtain ⟨w, s1, h1, h2⟩ := Res.bind_eq_ok.mp h
  obtain ⟨j, rfl⟩ := hr w s1 h1
  obtain ⟨k, rfl⟩ := hf w _ v t h2
  exact ⟨j + k, State.spend_spend _ _ _⟩

theorem readMemoryBit_ok {b1 b2 : Byte} {s t : State} {v : Bool} (h : readMemoryBit b1 b2 s = .ok v t) :
    ∃ k, t = s.spend k :=
  bind_reads h (fun _ _ h => (memRead_ok h).2) (fun _ _ _ _ h => by cases h; exact ⟨0, rfl⟩)

theorem pop8_spend {s t : State} {v : Byte} (h : pop8 s = .ok v t) : ∃ k, t = (s.withSp (s.sp + 1)).spend k :=
  (memRead_ok h).2

/-- A pop keeps every byte of memory. -/
theorem byteAt_pop8 {s t : State} {v : Byte} (h : pop8 s = .ok v t) (a : Word) : t.byteAt a = s.byteAt a := by
  obtain ⟨k, rfl⟩ := pop8_spend h
  rfl

theorem byteAt_popWord {s t : State} {w : Word} (h : popWord s = .ok w t) (a : Word) : t.byteAt a = s.byteAt a := by
  obtain ⟨lo, s1, h1, h2⟩ := Res.bind_eq_ok.mp h
  obtain ⟨hi, s2, h3, h4⟩ := Res.bind_eq_ok.mp h2
  cases h4
  exact (byteAt_pop8 h3 a).trans (byteAt_pop8 h1 a)

/-- A read-modify-write that answers changes its byte only. -/
theorem rmwByte_kept {ea : Word} {f : Byte → Byte} {s t : State} {v : Byte} (h : rmwByte ea f s = .ok v t) :
    memoryKept (· = ea) s t := by
  obtain ⟨_, s0, h0, h1⟩ := Res.bind_eq_ok.mp h
  obtain rfl : s0 = s := by
    unfold rmwCheck at h0
    repeat' split at h0
    all_goals first | (cases h0; done) | (cases h0; rfl)
  obtain ⟨w, s1, h2, h3⟩ := Res.bind_eq_ok.mp h1
  obtain ⟨_, s2, h4, h5⟩ := Res.bind_eq_ok.mp h3
  cases h5
  obtain ⟨-, k, rfl⟩ := memRead_ok h2
  exact fun a ha => ((memWrite_ok h4).2.2.2.2.2.1 a ha).trans (quiet_byteAt (quiet_betweenReadAndWrite _) a)

/-- An operation on the effective address of an operand that changes that byte only, and then CPU registers. -/
theorem kept_at_operand {α : Type} {o : Operand} {g : Word → State → Res α} {f : α → State → State} {s t : State}
    (hg : ∀ ea s1 v s2, g ea s1 = .ok v s2 → memoryKept (· = ea) s1 s2)
    (hf : ∀ v s1 a, (f v s1).byteAt a = s1.byteAt a)
    (h : ((effectiveAddress o s).bind g).done f = .next t) :
    ∃ ea s1, effectiveAddress o s = .ok ea s1 ∧ memoryKept (· = ea) s t := by
  obtain ⟨v, s2, h1, rfl⟩ := Res.done_eq_next.mp h
  obtain ⟨ea, s1, h2, h3⟩ := Res.bind_eq_ok.mp h1
  refine ⟨ea, s1, h2, fun a ha => ?_⟩
  obtain ⟨k, rfl⟩ := effectiveAddress_ok h2
  exact (hf _ _ a).trans (hg ea _ v s2 h3 a ha)

theorem store_kept {v : Byte} {o : Operand} {s t : State} (h : store v o s = .next t) :
    ∃ ea s1, effectiveAddress o s = .ok ea s1 ∧ memoryKept (· = ea) s t :=
  kept_at_operand (g := fun ea s1 => memWrite ea v s1) (fun _ _ _ _ h => (memWrite_ok h).2.2.2.2.2.1) (fun _ _ _ => rfl) h

theorem modify_kept {f : Byte → Byte → Byte × Byte} {o : Operand} {s t : State} (h : modify f o s = .next t) :
    ∃ ea s1, effectiveAddress o s = .ok ea s1 ∧ memoryKept (· = ea) s t :=
  kept_at_operand (g := fun ea s1 => rmwByte ea (fun v => (f v s.psw).1) s1)
    (f := fun v s1 => s1.withPsw (f v s.psw).2) (fun _ _ _ _ h => rmwByte_kept h) (fun _ _ _ => rfl) h

theorem exchangeA_kept {o : Operand} {s t : State} (h : exchangeA o s = .next t) :
    ∃ ea s1, effectiveAddress o s = .ok ea s1 ∧ memoryKept (· = ea) s t :=
  kept_at_operand (g := fun ea s1 => rmwByte ea (fun _ => s.a) s1)
    (f := fun v s1 => { s1 with a := v, psw := setNZ8 v s.psw }) (fun _ _ _ _ h => rmwByte_kept h)
    (fun _ _ _ => rfl) h

theorem rmw_kept {op : RmwOp} {o : Operand} {s t : State} (h : op.meaning o s = .next t) :
    ∃ ea s1, effectiveAddress o s = .ok ea s1 ∧ memoryKept (· = ea) s t := by
  cases op <;> first | exact modify_kept h | exact exchangeA_kept h

/-- Pushes change the stack bytes only. -/
theorem pushAll_kept {bytes : List Byte} {s t : State} {u : Unit} (hl : bytes.length ≤ 3)
    (h : pushAll bytes s = .ok u t) : memoryKept (· ∈ (List.range bytes.length).map (stackByte s)) s t := fun a ha =>
  (pushed_stackedOnly hl (pushAll_ok h)).2.2.2.1 a fun ⟨k, hk, e⟩ =>
    ha (List.mem_map.mpr ⟨k, List.mem_range.mpr hk, e.symm⟩)

theorem push8_kept {v : Byte} {s t : State} {u : Unit} (h : push8 v s = .ok u t) :
    memoryKept (· ∈ (List.range 1).map (stackByte s)) s t :=
  pushAll_kept (bytes := [v]) (by simp) (show pushAll [v] s = .ok u t by simp [pushAll, h])

theorem pushPc_kept {s t : State} {u : Unit} (h : pushPc s = .ok u t) :
    memoryKept (· ∈ (List.range 2).map (stackByte s)) s t :=
  pushAll_kept (bytes := [hiByte s.pc, loByte s.pc]) (by simp) (pushPc_eq s ▸ h)

theorem takeException_kept {image live : Byte} {vector : Word} {s t : State} {u : Unit}
    (h : takeException image live vector s = .ok u t) : memoryKept (· ∈ (List.range 3).map (stackByte s)) s t := by
  rw [takeException_eq] at h
  obtain ⟨_, s1, h1, h2⟩ := Res.bind_eq_ok.mp h
  cases h2
  exact fun a ha => pushAll_kept (bytes := [hiByte s.pc, loByte s.pc, image]) (by simp) h1 a ha

/-- A write of a pair changes its two bytes only. -/
theorem writePair_kept {d : Byte} {w : Word} {s t : State} {u : Unit} (h : writePair d w s = .ok u t) :
    memoryKept (· ∈ [zext16 d, zext16 (d + 1)]) s t := by
  obtain ⟨lo, s0, h0, b0⟩ := Res.bind_eq_ok.mp h
  obtain ⟨-, rfl, rfl⟩ := directPage_ok h0
  obtain ⟨_, s1, h1, b1⟩ := Res.bind_eq_ok.mp b0
  obtain ⟨hi, s2, h2, h3⟩ := Res.bind_eq_ok.mp b1
  obtain ⟨-, rfl, rfl⟩ := directPage_ok h2
  intro a ha
  simp at ha
  exact ((memWrite_ok h3).2.2.2.2.2.1 a ha.2).trans ((memWrite_ok h1).2.2.2.2.2.1 a ha.1)

theorem rmwCheck_ok {a : Word} {s t : State} {u : Unit} (h : rmwCheck a s = .ok u t) : t = s := by
  unfold rmwCheck at h
  repeat' split at h
  all_goals first | (cases h; done) | (cases h; rfl)

theorem modifyPair_kept {f : Word → Word} {d : Byte} {s t : State} (h : modifyPair f d s = .next t) :
    memoryKept (· ∈ [zext16 d, zext16 (d + 1)]) s t := by
  obtain ⟨w, s6, h6, rfl⟩ := Res.done_eq_next.mp h
  obtain ⟨lo, s0, h0, b0⟩ := Res.bind_eq_ok.mp h6
  obtain ⟨-, rfl, rfl⟩ := directPage_ok h0
  obtain ⟨_, s1, h1, b1⟩ := Res.bind_eq_ok.mp b0
  obtain rfl := rmwCheck_ok h1
  obtain ⟨hi, s2, h2, b2⟩ := Res.bind_eq_ok.mp b1
  obtain ⟨-, rfl, rfl⟩ := directPage_ok h2
  obtain ⟨_, s3, h3, b3⟩ := Res.bind_eq_ok.mp b2
  obtain rfl := rmwCheck_ok h3
  obtain ⟨v, s4, h4, b4⟩ := Res.bind_eq_ok.mp b3
  obtain ⟨k, rfl⟩ := readPair_ok h4
  obtain ⟨_, s5, h5, b5⟩ := Res.bind_eq_ok.mp b4
  cases b5
  exact fun a ha => (writePair_kept h5 a ha).trans (quiet_byteAt (quiet_betweenReadAndWrite _) a)

@[simp] theorem byteAt_branchIf (c : Bool) (rel : Byte) (s : State) (a : Word) :
    (branchIf c rel s).byteAt a = s.byteAt a := by
  cases c <;> rfl

theorem byteAt_enterPowerSaving (s : State) (a : Word) : (enterPowerSaving s).byteAt a = s.byteAt a := by
  unfold enterPowerSaving releaseDecision
  repeat' (first | rfl | split | simp only)

theorem byteAt_divOpen (s : State) (a : Word) : (divOpen s).2.byteAt a = s.byteAt a := by
  obtain ⟨k, h⟩ := divOpen_ok s
  rw [h]
  rfl

/-- What an instruction that stores one byte keeps. -/
theorem kept_of_operand {i : Instr} {o : Operand} {s t : State} (hw : writtenOperand i = some o)
    (h : ∃ ea s1, effectiveAddress o s = .ok ea s1 ∧ memoryKept (· = ea) s t) :
    memoryKept (· ∈ writtenBy i s) s t := by
  obtain ⟨ea, s1, h1, h2⟩ := h
  intro a ha
  simp only [writtenBy, hw, h1, List.mem_singleton] at ha
  exact h2 a ha

theorem source_kept {op : SourceOp} {src : Source} {s t : State} (h : op.meaning src s = .next t) (a : Word) :
    t.byteAt a = s.byteAt a := by
  cases op <;> exact byteAt_done h (fun _ _ h => readSource_ok h) (fun _ _ _ => rfl) a

/-- An instruction that answers changes no byte of memory outside those it writes (R70, R128). -/
theorem exec_writtenBy {i : Instr} {s t : State} (h : exec i s = .next t) : memoryKept (· ∈ writtenBy i s) s t := by
  cases hst : storeForm i with
  | some p =>
    rw [exec_store s hst] at h
    exact kept_of_operand (by simp [writtenOperand, hst]) (store_kept h)
  | none =>
  cases hrm : rmwForm i with
  | some p =>
    rw [exec_rmw s hrm] at h
    exact kept_of_operand (by simp [writtenOperand, hst, hrm]) (rmw_kept h)
  | none =>
  cases hso : sourceForm i with
  | some p =>
    rw [exec_source s hso] at h
    exact fun a _ => source_kept h a
  | none =>
  cases hbr : branchForm i with
  | some p =>
    rw [exec_branch s hbr] at h
    cases h
    exact fun a _ => byteAt_branchIf _ _ _ _
  | none =>
  cases hbb : byteBranchForm i with
  | some p =>
    rw [exec_byteBranch s hbb] at h
    exact fun a _ => byteAt_done h (fun _ _ h => readSource_ok h) (fun _ _ _ => byteAt_branchIf _ _ _ _) a
  | none =>
  cases hca : carryForm i with
  | some p =>
    rw [exec_carry s hca] at h
    exact fun a _ => byteAt_done h (fun _ _ h => readMemoryBit_ok h) (fun _ _ _ => rfl) a
  | none =>
  cases i
  case ldaAtXInc => exact fun a _ => byteAt_done h (fun _ _ h => readSource_ok h) (fun _ _ _ => rfl) a
  case staAtXInc =>
    exact kept_of_operand (o := .atX) rfl (kept_at_operand (g := fun ea s1 => memWrite ea s.a s1)
      (f := fun _ s1 => { s1 with x := s.x + 1 }) (fun _ _ _ _ h => (memWrite_ok h).2.2.2.2.2.1)
      (fun _ _ _ => rfl) h)
  case dbneDp dp rel =>
    exact kept_of_operand (o := .dp dp) rfl (kept_at_operand (g := fun ea s1 => rmwByte ea (fun v => v - 1) s1)
      (f := fun v s1 => branchIf (v - 1 != 0) rel s1) (fun _ _ _ _ h => rmwByte_kept h)
      (fun _ _ _ => byteAt_branchIf _ _ _ _) h)
  case addwDp | cmpwDp | ldyaDp | subwDp | jmpIndDp =>
    exact fun a _ => byteAt_done h (fun _ _ h => readPair_ok h) (fun _ _ _ => rfl) a
  case jmpIndAbs =>
    exact fun a _ => byteAt_done h (fun _ _ h => bind_reads h (fun _ _ h => (memRead_ok h).2) fun _ _ _ _ h =>
      bind_reads h (fun _ _ h => (memRead_ok h).2) fun _ _ _ _ h => by cases h; exact ⟨0, rfl⟩) (fun _ _ _ => rfl) a
  case decwDp | incwDp => exact modifyPair_kept h
  case styaDp =>
    obtain ⟨_, s1, h1, rfl⟩ := Res.done_eq_next.mp h
    exact writePair_kept h1
  case callAbs | pcall | tcall =>
    obtain ⟨_, s1, h1, rfl⟩ := Res.done_eq_next.mp h
    exact fun a ha => pushPc_kept h1 a ha
  case callIndDp =>
    obtain ⟨_, s2, h2, rfl⟩ := Res.done_eq_next.mp h
    obtain ⟨_, s1, h1, h3⟩ := Res.bind_eq_ok.mp h2
    obtain ⟨k, rfl⟩ := readPair_ok h3
    exact fun a ha => pushPc_kept h1 a ha
  case brk =>
    obtain ⟨_, s1, h1, rfl⟩ := Res.done_eq_next.mp h
    exact takeException_kept h1
  case pushA | pushX | pushY | pushPsw =>
    obtain ⟨_, s1, h1, rfl⟩ := Res.done_eq_next.mp h
    exact push8_kept h1
  case popA | popX | popY | popPsw =>
    obtain ⟨_, s1, h1, rfl⟩ := Res.done_eq_next.mp h
    exact fun a _ => byteAt_pop8 h1 a
  case ret =>
    obtain ⟨_, s1, h1, rfl⟩ := Res.done_eq_next.mp h
    exact fun a _ => byteAt_popWord h1 a
  case reti =>
    obtain ⟨_, s3, h3, rfl⟩ := Res.done_eq_next.mp h
    obtain ⟨_, s1, h1, h4⟩ := Res.bind_eq_ok.mp h3
    obtain ⟨_, s2, h2, h5⟩ := Res.bind_eq_ok.mp h4
    cases h5
    exact fun a _ => (byteAt_popWord h2 a).trans (byteAt_pop8 h1 a)
  case stop =>
    cases h
    exact fun a _ => byteAt_enterPowerSaving s a
  case bbcA | bbsA | dbneY =>
    cases h
    exact fun a _ => byteAt_branchIf _ _ _ a
  case div =>
    simp only [exec, execDiv] at h
    split at h
    · cases h
      exact fun a _ => rfl
    · cases h
      exact fun a _ => byteAt_divOpen s a
  all_goals first
    | (cases hst; done)
    | (cases hrm; done)
    | (cases hso; done)
    | (cases hbr; done)
    | (cases hbb; done)
    | (cases hca; done)
    | (cases h; done)
    | (cases h; exact fun a _ => rfl)

end Sys2Proof.Machine
end

