-- ==== Sys2Proof/Tests/Slice0.lean ====
section
/-! SUPPORT. The author's own tests: ill-formed terms, decoding of written-out words, the spec's vectors for one step, and
a witness for every obligation with hypotheses. -/

namespace Sys2Proof.Tests

open Sys2Proof Sys2Proof.Machine

/-- A running machine with the bytes of an instruction at its PC, some memory cells and CPU registers A, X, Y, SP, PSW, PC;
everything else as after reset. -/
def machine (code : List Byte) (cells : Memory) (c : Cpu) : State :=
  { State.reset.withCpu c with mem := placeBytes code c.pc.toNat cells, bootPending := false }

/-- CPU registers and listed RAM bytes of a next state. -/
def shown : Result → Option (Cpu × Memory)
  | .next t => some (t.cpu, t.mem.filter fun c => decide (c.1 < 0x80))
  | .fault _ | .refused _ => none

/-- The fault of a step that stops. -/
def stopped : Result → Option Fault
  | .fault e => some e
  | .next _ | .refused _ => none

/-- A layout of the `M.bit` operand bytes made up for these tests: the manual gives none (log entry 4). -/
def exampleLayout (b1 b2 : Byte) : MBit :=
  { addr := b1.setWidth 16, bit := b2.extractLsb' 0 3, invert := b2.getLsbD 7 }

/-! ## Well-formedness: an ill-formed term for each check (R127, R231) -/

theorem test_wellFormed_and1 : (Instr.and1 0x20 0x83).wellFormedIn exampleLayout = false := by decide
theorem test_wellFormed_and1b : (Instr.and1b 0x20 0x03).wellFormedIn exampleLayout = false := by decide
theorem test_wellFormed_or1 : (Instr.or1 0x20 0x83).wellFormedIn exampleLayout = false := by decide
theorem test_wellFormed_or1b : (Instr.or1b 0x20 0x03).wellFormedIn exampleLayout = false := by decide
theorem test_wellFormed_eor1 : (Instr.eor1 0x20 0x83).wellFormedIn exampleLayout = false := by decide
theorem test_wellFormed_eor1b : (Instr.eor1b 0x20 0x03).wellFormedIn exampleLayout = false := by decide
theorem test_wellFormed_ldc : (Instr.ldc 0x20 0x83).wellFormedIn exampleLayout = false := by decide
theorem test_wellFormed_ldcb : (Instr.ldcb 0x20 0x03).wellFormedIn exampleLayout = false := by decide

/-! ## Decoding: a word for every constructor, from the encoding tables of spec/30_encoding.md -/

theorem test_decode_nothing : decodeIn exampleLayout [] = .error .noOpcode := by decide

/-- An opcode without its operand bytes is refused by name. -/
theorem test_decode_short : decodeIn exampleLayout [0x07, 0x35] = .error (.missingOperand 0x07) := by decide

theorem test_decode_control_1 : ∀ p ∈
    [ ([0b00000000], Instr.unassigned), ([0b00001111], Instr.brk), ([0x60], Instr.di),
      ([0xE0], Instr.ei), ([0xFF], Instr.nop), ([0x0D], Instr.popA),
      ([0x2D], Instr.popX), ([0x4D], Instr.popY), ([0x6D], Instr.popPsw),
      ([0x0E], Instr.pushA), ([0x2E], Instr.pushX), ([0x4E], Instr.pushY) ],
    decodeIn exampleLayout p.1 = .ok (p.2, []) := by decide

theorem test_decode_control_2 : ∀ p ∈
    [ ([0x6E], Instr.pushPsw), ([0x6F], Instr.ret), ([0x7F], Instr.reti),
      ([0xEF], Instr.stop) ],
    decodeIn exampleLayout p.1 = .ok (p.2, []) := by decide

theorem test_decode_arithmetic_1 : ∀ p ∈
    [ ([0b00000100, 0b00110101], Instr.adcImm 0x35), ([0b00000101, 0b00100001], Instr.adcDp 0x21), ([0x06, 0x22], Instr.adcDpX 0x22),
      ([0x07, 0x34, 0xF2], Instr.adcAbs 0xF234), ([0x15, 0x34, 0xF2], Instr.adcAbsY 0xF234), ([0x16, 0x24], Instr.adcIndX 0x24),
      ([0x17, 0x25], Instr.adcIndY 0x25), ([0x14], Instr.adcAtX), ([0x24, 0x35], Instr.sbcImm 0x35),
      ([0x25, 0x21], Instr.sbcDp 0x21), ([0x26, 0x22], Instr.sbcDpX 0x22), ([0x27, 0x34, 0xF2], Instr.sbcAbs 0xF234) ],
    decodeIn exampleLayout p.1 = .ok (p.2, []) := by decide

theorem test_decode_arithmetic_2 : ∀ p ∈
    [ ([0x35, 0x34, 0xF2], Instr.sbcAbsY 0xF234), ([0x36, 0x24], Instr.sbcIndX 0x24), ([0x37, 0x25], Instr.sbcIndY 0x25),
      ([0x34], Instr.sbcAtX), ([0x44, 0x35], Instr.cmpImm 0x35), ([0x45, 0x21], Instr.cmpDp 0x21),
      ([0x46, 0x22], Instr.cmpDpX 0x22), ([0x47, 0x34, 0xF2], Instr.cmpAbs 0xF234), ([0x55, 0x34, 0xF2], Instr.cmpAbsY 0xF234),
      ([0x56, 0x24], Instr.cmpIndX 0x24), ([0x57, 0x25], Instr.cmpIndY 0x25), ([0x54], Instr.cmpAtX) ],
    decodeIn exampleLayout p.1 = .ok (p.2, []) := by decide

theorem test_decode_arithmetic_3 : ∀ p ∈
    [ ([0x64, 0x35], Instr.orImm 0x35), ([0x65, 0x21], Instr.orDp 0x21), ([0x66, 0x22], Instr.orDpX 0x22),
      ([0x67, 0x34, 0xF2], Instr.orAbs 0xF234), ([0x75, 0x34, 0xF2], Instr.orAbsY 0xF234), ([0x76, 0x24], Instr.orIndX 0x24),
      ([0x77, 0x25], Instr.orIndY 0x25), ([0x74], Instr.orAtX), ([0x84, 0x35], Instr.andImm 0x35),
      ([0x85, 0x21], Instr.andDp 0x21), ([0x86, 0x22], Instr.andDpX 0x22), ([0x87, 0x34, 0xF2], Instr.andAbs 0xF234) ],
    decodeIn exampleLayout p.1 = .ok (p.2, []) := by decide

theorem test_decode_arithmetic_4 : ∀ p ∈
    [ ([0x95, 0x34, 0xF2], Instr.andAbsY 0xF234), ([0x96, 0x24], Instr.andIndX 0x24), ([0x97, 0x25], Instr.andIndY 0x25),
      ([0x94], Instr.andAtX), ([0xA4, 0x35], Instr.eorImm 0x35), ([0xA5, 0x21], Instr.eorDp 0x21),
      ([0xA6, 0x22], Instr.eorDpX 0x22), ([0xA7, 0x34, 0xF2], Instr.eorAbs 0xF234), ([0xB5, 0x34, 0xF2], Instr.eorAbsY 0xF234),
      ([0xB6, 0x24], Instr.eorIndX 0x24), ([0xB7, 0x25], Instr.eorIndY 0x25), ([0xB4], Instr.eorAtX) ],
    decodeIn exampleLayout p.1 = .ok (p.2, []) := by decide

theorem test_decode_arithmetic_5 : ∀ p ∈
    [ ([0x08], Instr.aslA), ([0x09, 0x21], Instr.aslDp 0x21), ([0x19, 0x22], Instr.aslDpX 0x22),
      ([0x18, 0x34, 0xF2], Instr.aslAbs 0xF234), ([0x28], Instr.rolA), ([0x29, 0x21], Instr.rolDp 0x21),
      ([0x39, 0x22], Instr.rolDpX 0x22), ([0x38, 0x34, 0xF2], Instr.rolAbs 0xF234), ([0x48], Instr.lsrA),
      ([0x49, 0x21], Instr.lsrDp 0x21), ([0x59, 0x22], Instr.lsrDpX 0x22), ([0x58, 0x34, 0xF2], Instr.lsrAbs 0xF234) ],
    decodeIn exampleLayout p.1 = .ok (p.2, []) := by decide

theorem test_decode_arithmetic_6 : ∀ p ∈
    [ ([0x68], Instr.rorA), ([0x69, 0x21], Instr.rorDp 0x21), ([0x79, 0x22], Instr.rorDpX 0x22),
      ([0x78, 0x34, 0xF2], Instr.rorAbs 0xF234), ([0x88], Instr.incA), ([0x89, 0x21], Instr.incDp 0x21),
      ([0x99, 0x22], Instr.incDpX 0x22), ([0x98, 0x34, 0xF2], Instr.incAbs 0xF234), ([0xA8], Instr.decA),
      ([0xA9, 0x21], Instr.decDp 0x21), ([0xB9, 0x22], Instr.decDpX 0x22), ([0xB8, 0x34, 0xF2], Instr.decAbs 0xF234) ],
    decodeIn exampleLayout p.1 = .ok (p.2, []) := by decide

theorem test_decode_arithmetic_7 : ∀ p ∈
    [ ([0x8F], Instr.incX), ([0x9E], Instr.incY), ([0xAF], Instr.decX),
      ([0xBE], Instr.decY), ([0x5E, 0x35], Instr.cmpxImm 0x35), ([0x6C, 0x21], Instr.cmpxDp 0x21),
      ([0x7C, 0x34, 0xF2], Instr.cmpxAbs 0xF234), ([0x7E, 0x35], Instr.cmpyImm 0x35), ([0x8C, 0x21], Instr.cmpyDp 0x21),
      ([0x9C, 0x34, 0xF2], Instr.cmpyAbs 0xF234), ([0x2C, 0x21], Instr.comDp 0x21), ([0xDF], Instr.daa) ],
    decodeIn exampleLayout p.1 = .ok (p.2, []) := by decide

theorem test_decode_arithmetic_8 : ∀ p ∈
    [ ([0xCF], Instr.das), ([0x9B], Instr.div), ([0x5B], Instr.mul),
      ([0x4C, 0x21], Instr.tstDp 0x21), ([0xCE], Instr.xcn) ],
    decodeIn exampleLayout p.1 = .ok (p.2, []) := by decide

theorem test_decode_transfer_1 : ∀ p ∈
    [ ([0b11000100, 0b00110101], Instr.ldaImm 0x35), ([0b11000101, 0b00100001], Instr.ldaDp 0x21), ([0xC6, 0x22], Instr.ldaDpX 0x22),
      ([0xC7, 0x34, 0xF2], Instr.ldaAbs 0xF234), ([0xD5, 0x34, 0xF2], Instr.ldaAbsY 0xF234), ([0xD6, 0x24], Instr.ldaIndX 0x24),
      ([0xD7, 0x25], Instr.ldaIndY 0x25), ([0xD4], Instr.ldaAtX), ([0xE5, 0x21], Instr.staDp 0x21),
      ([0xE6, 0x22], Instr.staDpX 0x22), ([0xE7, 0x34, 0xF2], Instr.staAbs 0xF234), ([0xF5, 0x34, 0xF2], Instr.staAbsY 0xF234) ],
    decodeIn exampleLayout p.1 = .ok (p.2, []) := by decide

theorem test_decode_transfer_2 : ∀ p ∈
    [ ([0xF6, 0x24], Instr.staIndX 0x24), ([0xF7, 0x25], Instr.staIndY 0x25), ([0xF4], Instr.staAtX),
      ([0xE4, 0x55, 0x35], Instr.ldm 0x35 0x55), ([0xDB], Instr.ldaAtXInc), ([0xFB], Instr.staAtXInc),
      ([0x1E, 0x35], Instr.ldxImm 0x35), ([0xCC, 0x21], Instr.ldxDp 0x21), ([0xCD, 0x23], Instr.ldxDpY 0x23),
      ([0xDC, 0x34, 0xF2], Instr.ldxAbs 0xF234), ([0x3E, 0x35], Instr.ldyImm 0x35), ([0xC9, 0x21], Instr.ldyDp 0x21) ],
    decodeIn exampleLayout p.1 = .ok (p.2, []) := by decide

theorem test_decode_transfer_3 : ∀ p ∈
    [ ([0xD9, 0x22], Instr.ldyDpX 0x22), ([0xD8, 0x34, 0xF2], Instr.ldyAbs 0xF234), ([0xEC, 0x21], Instr.stxDp 0x21),
      ([0xED, 0x23], Instr.stxDpY 0x23), ([0xFC, 0x34, 0xF2], Instr.stxAbs 0xF234), ([0xE9, 0x21], Instr.styDp 0x21),
      ([0xF9, 0x22], Instr.styDpX 0x22), ([0xF8, 0x34, 0xF2], Instr.styAbs 0xF234), ([0xE8], Instr.tax),
      ([0x9F], Instr.tay), ([0xAE], Instr.tspx), ([0xC8], Instr.txa) ],
    decodeIn exampleLayout p.1 = .ok (p.2, []) := by decide

theorem test_decode_transfer_4 : ∀ p ∈
    [ ([0x8E], Instr.txsp), ([0xBF], Instr.tya), ([0xEE], Instr.xax),
      ([0xDE], Instr.xay), ([0xBC, 0x21], Instr.xmaDp 0x21), ([0xAD, 0x22], Instr.xmaDpX 0x22),
      ([0xBB], Instr.xmaAtX), ([0xFE], Instr.xyx) ],
    decodeIn exampleLayout p.1 = .ok (p.2, []) := by decide

theorem test_decode_word_1 : ∀ p ∈
    [ ([0b00011101, 0b00100001], Instr.addwDp 0x21), ([0b01011101, 0b00100001], Instr.cmpwDp 0x21), ([0xBD, 0x21], Instr.decwDp 0x21),
      ([0x9D, 0x21], Instr.incwDp 0x21), ([0x7D, 0x21], Instr.ldyaDp 0x21), ([0xDD, 0x21], Instr.styaDp 0x21),
      ([0x3D, 0x21], Instr.subwDp 0x21) ],
    decodeIn exampleLayout p.1 = .ok (p.2, []) := by decide

theorem test_decode_bit_1 : ∀ p ∈
    [ ([0b10001011, 0b00100000, 0b00000011], Instr.and1 0x20 0x03), ([0b10001011, 0b00100000, 0b10000011], Instr.and1b 0x20 0x83), ([0xAB, 0x20, 0x03], Instr.eor1 0x20 0x03),
      ([0xAB, 0x20, 0x83], Instr.eor1b 0x20 0x83), ([0xCB, 0x20, 0x03], Instr.ldc 0x20 0x03), ([0xCB, 0x20, 0x83], Instr.ldcb 0x20 0x83),
      ([0x4B, 0x20, 0x03], Instr.not1 0x20 0x03), ([0x6B, 0x20, 0x03], Instr.or1 0x20 0x03), ([0x6B, 0x20, 0x83], Instr.or1b 0x20 0x83),
      ([0xEB, 0x20, 0x03], Instr.stc 0x20 0x03), ([0x0B, 0x05], Instr.seta1 0x05), ([0x2B, 0x05], Instr.clra1 0x05) ],
    decodeIn exampleLayout p.1 = .ok (p.2, []) := by decide

theorem test_decode_bit_2 : ∀ p ∈
    [ ([0x0C, 0x21], Instr.bitDp 0x21), ([0x1C, 0x34, 0xF2], Instr.bitAbs 0xF234), ([0xA1, 0x21], Instr.set1 5 0x21),
      ([0xB1, 0x21], Instr.clr1 5 0x21), ([0x20], Instr.clrc), ([0x40], Instr.clrg),
      ([0x80], Instr.clrv), ([0xA0], Instr.setc), ([0xC0], Instr.setg),
      ([0x5C, 0x34, 0xF2], Instr.tclr1Abs 0xF234), ([0x3C, 0x34, 0xF2], Instr.tset1Abs 0xF234) ],
    decodeIn exampleLayout p.1 = .ok (p.2, []) := by decide

theorem test_decode_branch_1 : ∀ p ∈
    [ ([0b10110010, 0b11111110], Instr.bbcA 5 0xFE), ([0b10110011, 0b00100001, 0b11111110], Instr.bbcDp 5 0x21 0xFE), ([0xA2, 0xFE], Instr.bbsA 5 0xFE),
      ([0xA3, 0x21, 0xFE], Instr.bbsDp 5 0x21 0xFE), ([0x50, 0xFE], Instr.bcc 0xFE), ([0xD0, 0xFE], Instr.bcs 0xFE),
      ([0xF0, 0xFE], Instr.beq 0xFE), ([0x90, 0xFE], Instr.bmi 0xFE), ([0x70, 0xFE], Instr.bne 0xFE),
      ([0x10, 0xFE], Instr.bpl 0xFE), ([0x30, 0xFE], Instr.bvc 0xFE), ([0xB0, 0xFE], Instr.bvs 0xFE) ],
    decodeIn exampleLayout p.1 = .ok (p.2, []) := by decide

theorem test_decode_branch_2 : ∀ p ∈
    [ ([0x2F, 0xFE], Instr.bra 0xFE), ([0x3B, 0x34, 0xF2], Instr.callAbs 0xF234), ([0x5F, 0x26], Instr.callIndDp 0x26),
      ([0xFD, 0x21, 0xFE], Instr.cbneDp 0x21 0xFE), ([0x8D, 0x21, 0xFE], Instr.cbneDpX 0x21 0xFE), ([0xAC, 0x21, 0xFE], Instr.dbneDp 0x21 0xFE),
      ([0x7B, 0xFE], Instr.dbneY 0xFE), ([0x1B, 0x34, 0xF2], Instr.jmpAbs 0xF234), ([0x1F, 0x34, 0xF2], Instr.jmpIndAbs 0xF234),
      ([0x3F, 0x26], Instr.jmpIndDp 0x26), ([0x4F, 0x35], Instr.pcall 0x35), ([0xBA], Instr.tcall 11) ],
    decodeIn exampleLayout p.1 = .ok (p.2, []) := by decide

/-- A table word is numbered from the opcode byte up; an operand the table gives no bits is 0. -/
theorem test_tableWord :
    decodeTableWord 16 0x3504 = some (.adcImm 0x35) ∧ decodeTableWord 24 0x3555E4 = some (.ldm 0x35 0x55) ∧
      decodeTableWord 8 0x07 = some (.adcAbs 0x0000) := by decide

/-- A table word placed at reset is what the next step runs. -/
theorem test_withFetchWord :
    shown (step (State.reset.withFetchWord 16 0x35C4)) = some (⟨0x35, 0, 0, 0, 0x00, 0xF002⟩, []) := by decide

/-! ## Vectors of one instruction (spec/95_test_vectors.md, part 2) -/

/-- Vector A1 (spec/95_test_vectors.md): ADC #00H. -/
theorem test_A1 : shown (step (machine [0x04, 0x00] [] ⟨0xFF, 0x00, 0x00, 0x7F, 0x01, 0xF000⟩)) =
    some (⟨0x00, 0x00, 0x00, 0x7F, 0x0B, 0xF002⟩, []) := by decide

/-- Vector A2 (spec/95_test_vectors.md): ADC #01H. -/
theorem test_A2 : shown (step (machine [0x04, 0x01] [] ⟨0x7F, 0x00, 0x00, 0x7F, 0x00, 0xF000⟩)) =
    some (⟨0x80, 0x00, 0x00, 0x7F, 0xC8, 0xF002⟩, []) := by decide

/-- Vector A5 (spec/95_test_vectors.md): ADC 30H. -/
theorem test_A5 : shown (step (machine [0x05, 0x30] [(0x30, 0x48)] ⟨0x25, 0x00, 0x00, 0x7F, 0x04, 0xF000⟩)) =
    some (⟨0x6D, 0x00, 0x00, 0x7F, 0x04, 0xF002⟩, [(0x30, 0x48)]) := by decide

/-- Vector A6 (spec/95_test_vectors.md): ADC !0F800H. -/
theorem test_A6 : shown (step (machine [0x07, 0x00, 0xF8] [(0xF800, 0xFE)] ⟨0x01, 0x00, 0x00, 0x7F, 0x01, 0xF000⟩)) =
    some (⟨0x00, 0x00, 0x00, 0x7F, 0x0B, 0xF003⟩, []) := by decide

/-- Vector A8 (spec/95_test_vectors.md): SBC #01H. -/
theorem test_A8 : shown (step (machine [0x24, 0x01] [] ⟨0x80, 0x00, 0x00, 0x7F, 0x01, 0xF000⟩)) =
    some (⟨0x7F, 0x00, 0x00, 0x7F, 0x41, 0xF002⟩, []) := by decide

/-- Vector A10 (spec/95_test_vectors.md): SBC #10H. -/
theorem test_A10 : shown (step (machine [0x24, 0x10] [] ⟨0x50, 0x00, 0x00, 0x7F, 0x01, 0xF000⟩)) =
    some (⟨0x40, 0x00, 0x00, 0x7F, 0x09, 0xF002⟩, []) := by decide

/-- Vector A12 (spec/95_test_vectors.md): CMP #10H. -/
theorem test_A12 : shown (step (machine [0x44, 0x10] [] ⟨0x10, 0x00, 0x00, 0x7F, 0x48, 0xF000⟩)) =
    some (⟨0x10, 0x00, 0x00, 0x7F, 0x4B, 0xF002⟩, []) := by decide

/-- Vector A14 (spec/95_test_vectors.md): CMP #80H. -/
theorem test_A14 : shown (step (machine [0x44, 0x80] [] ⟨0x7F, 0x00, 0x00, 0x7F, 0x00, 0xF000⟩)) =
    some (⟨0x7F, 0x00, 0x00, 0x7F, 0x80, 0xF002⟩, []) := by decide

/-- Vector A15 (spec/95_test_vectors.md): CMPX 20H. -/
theorem test_A15 : shown (step (machine [0x6C, 0x20] [(0x20, 0x7F)] ⟨0x00, 0x80, 0x00, 0x7F, 0x00, 0xF000⟩)) =
    some (⟨0x00, 0x80, 0x00, 0x7F, 0x01, 0xF002⟩, [(0x20, 0x7F)]) := by decide

/-- Vector A16 (spec/95_test_vectors.md): CMPX #80H. -/
theorem test_A16 : shown (step (machine [0x5E, 0x80] [] ⟨0x00, 0x80, 0x00, 0x7F, 0x00, 0xF000⟩)) =
    some (⟨0x00, 0x80, 0x00, 0x7F, 0x03, 0xF002⟩, []) := by decide

/-- Vector A17 (spec/95_test_vectors.md): CMPY #05H. -/
theorem test_A17 : shown (step (machine [0x7E, 0x05] [] ⟨0x00, 0x00, 0x03, 0x7F, 0x00, 0xF000⟩)) =
    some (⟨0x00, 0x00, 0x03, 0x7F, 0x80, 0xF002⟩, []) := by decide

/-- Vector A18 (spec/95_test_vectors.md): CMPY !0030H. -/
theorem test_A18 : shown (step (machine [0x9C, 0x30, 0x00] [(0x30, 0x00)] ⟨0x00, 0x00, 0xFF, 0x7F, 0x00, 0xF000⟩)) =
    some (⟨0x00, 0x00, 0xFF, 0x7F, 0x81, 0xF003⟩, [(0x30, 0x00)]) := by decide

/-- Vector A19 (spec/95_test_vectors.md): AND #0FH. -/
theorem test_A19 : shown (step (machine [0x84, 0x0F] [] ⟨0xA5, 0x00, 0x00, 0x7F, 0x01, 0xF000⟩)) =
    some (⟨0x05, 0x00, 0x00, 0x7F, 0x01, 0xF002⟩, []) := by decide

/-- Vector A20 (spec/95_test_vectors.md): AND #00H. -/
theorem test_A20 : shown (step (machine [0x84, 0x00] [] ⟨0xFF, 0x00, 0x00, 0x7F, 0x00, 0xF000⟩)) =
    some (⟨0x00, 0x00, 0x00, 0x7F, 0x02, 0xF002⟩, []) := by decide

/-- Vector A21 (spec/95_test_vectors.md): OR #80H. -/
theorem test_A21 : shown (step (machine [0x64, 0x80] [] ⟨0x01, 0x00, 0x00, 0x7F, 0x00, 0xF000⟩)) =
    some (⟨0x81, 0x00, 0x00, 0x7F, 0x80, 0xF002⟩, []) := by decide

/-- Vector A22 (spec/95_test_vectors.md): OR #00H. -/
theorem test_A22 : shown (step (machine [0x64, 0x00] [] ⟨0x00, 0x00, 0x00, 0x7F, 0x80, 0xF000⟩)) =
    some (⟨0x00, 0x00, 0x00, 0x7F, 0x02, 0xF002⟩, []) := by decide

/-- Vector A23 (spec/95_test_vectors.md): EOR #0FFH. -/
theorem test_A23 : shown (step (machine [0xA4, 0xFF] [] ⟨0x55, 0x00, 0x00, 0x7F, 0x00, 0xF000⟩)) =
    some (⟨0xAA, 0x00, 0x00, 0x7F, 0x80, 0xF002⟩, []) := by decide

/-- Vector A24 (spec/95_test_vectors.md): EOR #55H. -/
theorem test_A24 : shown (step (machine [0xA4, 0x55] [] ⟨0x55, 0x00, 0x00, 0x7F, 0x00, 0xF000⟩)) =
    some (⟨0x00, 0x00, 0x00, 0x7F, 0x02, 0xF002⟩, []) := by decide

/-- Vector A25 (spec/95_test_vectors.md): ASL A. -/
theorem test_A25 : shown (step (machine [0x08] [] ⟨0x80, 0x00, 0x00, 0x7F, 0x00, 0xF000⟩)) =
    some (⟨0x00, 0x00, 0x00, 0x7F, 0x03, 0xF001⟩, []) := by decide

/-- Vector A26 (spec/95_test_vectors.md): ASL A. -/
theorem test_A26 : shown (step (machine [0x08] [] ⟨0x41, 0x00, 0x00, 0x7F, 0x01, 0xF000⟩)) =
    some (⟨0x82, 0x00, 0x00, 0x7F, 0x80, 0xF001⟩, []) := by decide

/-- Vector A27 (spec/95_test_vectors.md): ASL 20H. -/
theorem test_A27 : shown (step (machine [0x09, 0x20] [(0x20, 0xC0)] ⟨0x00, 0x00, 0x00, 0x7F, 0x00, 0xF000⟩)) =
    some (⟨0x00, 0x00, 0x00, 0x7F, 0x81, 0xF002⟩, [(0x20, 0x80)]) := by decide

/-- Vector A28 (spec/95_test_vectors.md): LSR A. -/
theorem test_A28 : shown (step (machine [0x48] [] ⟨0x01, 0x00, 0x00, 0x7F, 0x80, 0xF000⟩)) =
    some (⟨0x00, 0x00, 0x00, 0x7F, 0x03, 0xF001⟩, []) := by decide

/-- Vector A29 (spec/95_test_vectors.md): LSR A. -/
theorem test_A29 : shown (step (machine [0x48] [] ⟨0x80, 0x00, 0x00, 0x7F, 0x01, 0xF000⟩)) =
    some (⟨0x40, 0x00, 0x00, 0x7F, 0x00, 0xF001⟩, []) := by decide

/-- Vector A30 (spec/95_test_vectors.md): ROL A. -/
theorem test_A30 : shown (step (machine [0x28] [] ⟨0x80, 0x00, 0x00, 0x7F, 0x01, 0xF000⟩)) =
    some (⟨0x01, 0x00, 0x00, 0x7F, 0x01, 0xF001⟩, []) := by decide

/-- Vector A31 (spec/95_test_vectors.md): ROL A. -/
theorem test_A31 : shown (step (machine [0x28] [] ⟨0x40, 0x00, 0x00, 0x7F, 0x00, 0xF000⟩)) =
    some (⟨0x80, 0x00, 0x00, 0x7F, 0x80, 0xF001⟩, []) := by decide

/-- Vector A32 (spec/95_test_vectors.md): ROR A. -/
theorem test_A32 : shown (step (machine [0x68] [] ⟨0x01, 0x00, 0x00, 0x7F, 0x00, 0xF000⟩)) =
    some (⟨0x00, 0x00, 0x00, 0x7F, 0x03, 0xF001⟩, []) := by decide

/-- Vector A33 (spec/95_test_vectors.md): ROR A. -/
theorem test_A33 : shown (step (machine [0x68] [] ⟨0x00, 0x00, 0x00, 0x7F, 0x01, 0xF000⟩)) =
    some (⟨0x80, 0x00, 0x00, 0x7F, 0x80, 0xF001⟩, []) := by decide

/-- Vector A34 (spec/95_test_vectors.md): ROR 20H+X. -/
theorem test_A34 : shown (step (machine [0x79, 0x20] [(0x25, 0x02)] ⟨0x00, 0x05, 0x00, 0x7F, 0x01, 0xF000⟩)) =
    some (⟨0x00, 0x05, 0x00, 0x7F, 0x80, 0xF002⟩, [(0x25, 0x81)]) := by decide

/-- Vector A35 (spec/95_test_vectors.md): INC A. -/
theorem test_A35 : shown (step (machine [0x88] [] ⟨0xFF, 0x00, 0x00, 0x7F, 0x00, 0xF000⟩)) =
    some (⟨0x00, 0x00, 0x00, 0x7F, 0x02, 0xF001⟩, []) := by decide

/-- Vector A36 (spec/95_test_vectors.md): INC A. -/
theorem test_A36 : shown (step (machine [0x88] [] ⟨0x7F, 0x00, 0x00, 0x7F, 0x01, 0xF000⟩)) =
    some (⟨0x80, 0x00, 0x00, 0x7F, 0x81, 0xF001⟩, []) := by decide

/-- Vector A37 (spec/95_test_vectors.md): INC !0035H. -/
theorem test_A37 : shown (step (machine [0x98, 0x35, 0x00] [(0x35, 0x0F)] ⟨0x00, 0x00, 0x00, 0x7F, 0x00, 0xF000⟩)) =
    some (⟨0x00, 0x00, 0x00, 0x7F, 0x00, 0xF003⟩, [(0x35, 0x10)]) := by decide

/-- Vector A38 (spec/95_test_vectors.md): DEC A. -/
theorem test_A38 : shown (step (machine [0xA8] [] ⟨0x00, 0x00, 0x00, 0x7F, 0x01, 0xF000⟩)) =
    some (⟨0xFF, 0x00, 0x00, 0x7F, 0x81, 0xF001⟩, []) := by decide

/-- Vector A39 (spec/95_test_vectors.md): DEC A. -/
theorem test_A39 : shown (step (machine [0xA8] [] ⟨0x01, 0x00, 0x00, 0x7F, 0x00, 0xF000⟩)) =
    some (⟨0x00, 0x00, 0x00, 0x7F, 0x02, 0xF001⟩, []) := by decide

/-- Vector A40 (spec/95_test_vectors.md): DEC 20H. -/
theorem test_A40 : shown (step (machine [0xA9, 0x20] [(0x20, 0x80)] ⟨0x00, 0x00, 0x00, 0x7F, 0x00, 0xF000⟩)) =
    some (⟨0x00, 0x00, 0x00, 0x7F, 0x00, 0xF002⟩, [(0x20, 0x7F)]) := by decide

/-- Vector A41 (spec/95_test_vectors.md): INC X. -/
theorem test_A41 : shown (step (machine [0x8F] [] ⟨0x00, 0xFF, 0x00, 0x7F, 0x00, 0xF000⟩)) =
    some (⟨0x00, 0x00, 0x00, 0x7F, 0x02, 0xF001⟩, []) := by decide

/-- Vector A42 (spec/95_test_vectors.md): INC Y. -/
theorem test_A42 : shown (step (machine [0x9E] [] ⟨0x00, 0x00, 0x7F, 0x7F, 0x00, 0xF000⟩)) =
    some (⟨0x00, 0x00, 0x80, 0x7F, 0x80, 0xF001⟩, []) := by decide

/-- Vector A43 (spec/95_test_vectors.md): DEC X. -/
theorem test_A43 : shown (step (machine [0xAF] [] ⟨0x00, 0x00, 0x00, 0x7F, 0x00, 0xF000⟩)) =
    some (⟨0x00, 0xFF, 0x00, 0x7F, 0x80, 0xF001⟩, []) := by decide

/-- Vector A44 (spec/95_test_vectors.md): DEC Y. -/
theorem test_A44 : shown (step (machine [0xBE] [] ⟨0x00, 0x00, 0x01, 0x7F, 0x00, 0xF000⟩)) =
    some (⟨0x00, 0x00, 0x00, 0x7F, 0x02, 0xF001⟩, []) := by decide

/-- Vector A45 (spec/95_test_vectors.md): COM 20H. -/
theorem test_A45 : shown (step (machine [0x2C, 0x20] [(0x20, 0x55)] ⟨0x00, 0x00, 0x00, 0x7F, 0x00, 0xF000⟩)) =
    some (⟨0x00, 0x00, 0x00, 0x7F, 0x80, 0xF002⟩, [(0x20, 0xAA)]) := by decide

/-- Vector A46 (spec/95_test_vectors.md): COM 20H. -/
theorem test_A46 : shown (step (machine [0x2C, 0x20] [(0x20, 0xFF)] ⟨0x00, 0x00, 0x00, 0x7F, 0x00, 0xF000⟩)) =
    some (⟨0x00, 0x00, 0x00, 0x7F, 0x02, 0xF002⟩, [(0x20, 0x00)]) := by decide

/-- Vector A48 (spec/95_test_vectors.md): XCN. -/
theorem test_A48 : shown (step (machine [0xCE] [] ⟨0x0F, 0x00, 0x00, 0x7F, 0x00, 0xF000⟩)) =
    some (⟨0xF0, 0x00, 0x00, 0x7F, 0x80, 0xF001⟩, []) := by decide

/-- Vector A49 (spec/95_test_vectors.md): XCN. -/
theorem test_A49 : shown (step (machine [0xCE] [] ⟨0x00, 0x00, 0x00, 0x7F, 0x00, 0xF000⟩)) =
    some (⟨0x00, 0x00, 0x00, 0x7F, 0x02, 0xF001⟩, []) := by decide

/-- Vector A50 (spec/95_test_vectors.md): TST 20H. -/
theorem test_A50 : shown (step (machine [0x4C, 0x20] [(0x20, 0x80)] ⟨0x00, 0x00, 0x00, 0x7F, 0x01, 0xF000⟩)) =
    some (⟨0x00, 0x00, 0x00, 0x7F, 0x81, 0xF002⟩, [(0x20, 0x80)]) := by decide

/-- Vector A51 (spec/95_test_vectors.md): TST 20H. -/
theorem test_A51 : shown (step (machine [0x4C, 0x20] [(0x20, 0x00)] ⟨0x00, 0x00, 0x00, 0x7F, 0x00, 0xF000⟩)) =
    some (⟨0x00, 0x00, 0x00, 0x7F, 0x02, 0xF002⟩, [(0x20, 0x00)]) := by decide

/-- Vector A52 (spec/95_test_vectors.md): MUL. -/
theorem test_A52 : shown (step (machine [0x5B] [] ⟨0xFF, 0x00, 0xFF, 0x7F, 0x00, 0xF000⟩)) =
    some (⟨0x01, 0x00, 0xFE, 0x7F, 0x80, 0xF001⟩, []) := by decide

/-- Vector A53 (spec/95_test_vectors.md): MUL. -/
theorem test_A53 : shown (step (machine [0x5B] [] ⟨0x10, 0x00, 0x10, 0x7F, 0x82, 0xF000⟩)) =
    some (⟨0x00, 0x00, 0x01, 0x7F, 0x00, 0xF001⟩, []) := by decide

/-- Vector A59 (spec/95_test_vectors.md): DAA. -/
theorem test_A59 (h : Config.daaFn = none) :
    shown (step (machine [0xDF] [] ⟨0x9A, 0x00, 0x00, 0x7F, 0x00, 0xF000⟩)) =
      some (⟨0x00, 0x00, 0x00, 0x7F, 0x03, 0xF001⟩, []) := by
  rw [show step (machine [0xDF] [] ⟨0x9A, 0x00, 0x00, 0x7F, 0x00, 0xF000⟩) =
    adjustAccumulator daaFunction ((machine [0xDF] [] ⟨0x9A, 0x00, 0x00, 0x7F, 0x00, 0xF000⟩).withPc 0xF001) from rfl, daaFunction_default h]
  decide

/-- Vector A60 (spec/95_test_vectors.md): DAA. -/
theorem test_A60 (h : Config.daaFn = none) :
    shown (step (machine [0xDF] [] ⟨0x12, 0x00, 0x00, 0x7F, 0x01, 0xF000⟩)) =
      some (⟨0x72, 0x00, 0x00, 0x7F, 0x01, 0xF001⟩, []) := by
  rw [show step (machine [0xDF] [] ⟨0x12, 0x00, 0x00, 0x7F, 0x01, 0xF000⟩) =
    adjustAccumulator daaFunction ((machine [0xDF] [] ⟨0x12, 0x00, 0x00, 0x7F, 0x01, 0xF000⟩).withPc 0xF001) from rfl, daaFunction_default h]
  decide

/-- Vector A61 (spec/95_test_vectors.md): DAS. -/
theorem test_A61 (h : Config.dasFn = none) :
    shown (step (machine [0xCF] [] ⟨0x1F, 0x00, 0x00, 0x7F, 0x01, 0xF000⟩)) =
      some (⟨0x19, 0x00, 0x00, 0x7F, 0x01, 0xF001⟩, []) := by
  rw [show step (machine [0xCF] [] ⟨0x1F, 0x00, 0x00, 0x7F, 0x01, 0xF000⟩) =
    adjustAccumulator dasFunction ((machine [0xCF] [] ⟨0x1F, 0x00, 0x00, 0x7F, 0x01, 0xF000⟩).withPc 0xF001) from rfl, dasFunction_default h]
  decide

/-- Vector A62 (spec/95_test_vectors.md): DAS. -/
theorem test_A62 (h : Config.dasFn = none) :
    shown (step (machine [0xCF] [] ⟨0x99, 0x00, 0x00, 0x7F, 0x00, 0xF000⟩)) =
      some (⟨0x33, 0x00, 0x00, 0x7F, 0x00, 0xF001⟩, []) := by
  rw [show step (machine [0xCF] [] ⟨0x99, 0x00, 0x00, 0x7F, 0x00, 0xF000⟩) =
    adjustAccumulator dasFunction ((machine [0xCF] [] ⟨0x99, 0x00, 0x00, 0x7F, 0x00, 0xF000⟩).withPc 0xF001) from rfl, dasFunction_default h]
  decide

/-- Vector M1 (spec/95_test_vectors.md): LDA #00H. -/
theorem test_M1 : shown (step (machine [0xC4, 0x00] [] ⟨0x55, 0x00, 0x00, 0x7F, 0x80, 0xF000⟩)) =
    some (⟨0x00, 0x00, 0x00, 0x7F, 0x02, 0xF002⟩, []) := by decide

/-- Vector M2 (spec/95_test_vectors.md): LDA #80H. -/
theorem test_M2 : shown (step (machine [0xC4, 0x80] [] ⟨0x00, 0x00, 0x00, 0x7F, 0x02, 0xF000⟩)) =
    some (⟨0x80, 0x00, 0x00, 0x7F, 0x80, 0xF002⟩, []) := by decide

/-- Vector M3 (spec/95_test_vectors.md): LDA 35H. -/
theorem test_M3 : shown (step (machine [0xC5, 0x35] [(0x35, 0x12)] ⟨0x00, 0x00, 0x00, 0x7F, 0x00, 0xF000⟩)) =
    some (⟨0x12, 0x00, 0x00, 0x7F, 0x00, 0xF002⟩, [(0x35, 0x12)]) := by decide

/-- Vector B20 (spec/95_test_vectors.md): LDA 20H with G=1. -/
theorem test_B20 : stopped (step (machine [0xC5, 0x20] [(0x20, 0x00)] ⟨0x00, 0x00, 0x00, 0x7F, 0x20, 0xF000⟩)) =
    some .directPageWithGSet := by decide

/-- Vector M4 (spec/95_test_vectors.md): LDA 0F0H+X. -/
theorem test_M4 : shown (step (machine [0xC6, 0xF0] [(0x10, 0x77)] ⟨0x00, 0x20, 0x00, 0x7F, 0x00, 0xF000⟩)) =
    some (⟨0x77, 0x20, 0x00, 0x7F, 0x00, 0xF002⟩, [(0x10, 0x77)]) := by decide

/-- Vector M5 (spec/95_test_vectors.md): LDA !0FA00H+Y. -/
theorem test_M5 : shown (step (machine [0xD5, 0x00, 0xFA] [(0xFA55, 0xC3)] ⟨0x00, 0x00, 0x55, 0x7F, 0x00, 0xF000⟩)) =
    some (⟨0xC3, 0x00, 0x55, 0x7F, 0x80, 0xF003⟩, []) := by decide

/-- Vector M6 (spec/95_test_vectors.md): LDA [25H+X]. -/
theorem test_M6 : shown (step (machine [0xD6, 0x25] [(0x35, 0x40), (0x36, 0x00), (0x40, 0x99)] ⟨0x00, 0x10, 0x00, 0x7F, 0x00, 0xF000⟩)) =
    some (⟨0x99, 0x10, 0x00, 0x7F, 0x80, 0xF002⟩, [(0x35, 0x40), (0x36, 0x00), (0x40, 0x99)]) := by decide

/-- Vector M7 (spec/95_test_vectors.md): LDA [25H]+Y. -/
theorem test_M7 : shown (step (machine [0xD7, 0x25] [(0x08, 0x5A), (0x25, 0xF8), (0x26, 0xFF)] ⟨0x00, 0x00, 0x10, 0x7F, 0x00, 0xF000⟩)) =
    some (⟨0x5A, 0x00, 0x10, 0x7F, 0x00, 0xF002⟩, [(0x08, 0x5A), (0x25, 0xF8), (0x26, 0xFF)]) := by decide

/-- Vector M8 (spec/95_test_vectors.md): LDA [25H]+Y. -/
theorem test_M8 : shown (step (machine [0xD7, 0x25] [(0x25, 0xF8), (0x26, 0xFE), (0xFF08, 0x00)] ⟨0x00, 0x00, 0x10, 0x7F, 0x00, 0xF000⟩)) =
    some (⟨0x00, 0x00, 0x10, 0x7F, 0x02, 0xF002⟩, [(0x25, 0xF8), (0x26, 0xFE)]) := by decide

/-- Vector M9 (spec/95_test_vectors.md): LDA {X}. -/
theorem test_M9 : shown (step (machine [0xD4] [(0x15, 0x00)] ⟨0x00, 0x15, 0x00, 0x7F, 0x00, 0xF000⟩)) =
    some (⟨0x00, 0x15, 0x00, 0x7F, 0x02, 0xF001⟩, [(0x15, 0x00)]) := by decide

/-- Vector M10 (spec/95_test_vectors.md): LDA {X}+. -/
theorem test_M10 : shown (step (machine [0xDB] [(0x35, 0x81)] ⟨0x00, 0x35, 0x00, 0x7F, 0x00, 0xF000⟩)) =
    some (⟨0x81, 0x36, 0x00, 0x7F, 0x80, 0xF001⟩, [(0x35, 0x81)]) := by decide

/-- Vector M11 (spec/95_test_vectors.md): LDA {X}+. -/
theorem test_M11 : shown (step (machine [0xDB] [(0x7F, 0x01)] ⟨0x00, 0x7F, 0x00, 0x7F, 0x00, 0xF000⟩)) =
    some (⟨0x01, 0x80, 0x00, 0x7F, 0x00, 0xF001⟩, [(0x7F, 0x01)]) := by decide

/-- Vector M12 (spec/95_test_vectors.md): LDM 35H,#55H. -/
theorem test_M12 : shown (step (machine [0xE4, 0x55, 0x35] [] ⟨0x00, 0x00, 0x00, 0x7F, 0x83, 0xF000⟩)) =
    some (⟨0x00, 0x00, 0x00, 0x7F, 0x83, 0xF003⟩, [(0x35, 0x55)]) := by decide

/-- Vector M14 (spec/95_test_vectors.md): LDX #00H. -/
theorem test_M14 : shown (step (machine [0x1E, 0x00] [] ⟨0x00, 0x11, 0x00, 0x7F, 0x00, 0xF000⟩)) =
    some (⟨0x00, 0x00, 0x00, 0x7F, 0x02, 0xF002⟩, []) := by decide

/-- Vector M15 (spec/95_test_vectors.md): LDX 10H+Y. -/
theorem test_M15 : shown (step (machine [0xCD, 0x10] [(0x08, 0x80)] ⟨0x00, 0x00, 0xF8, 0x7F, 0x00, 0xF000⟩)) =
    some (⟨0x00, 0x80, 0xF8, 0x7F, 0x80, 0xF002⟩, [(0x08, 0x80)]) := by decide

/-- Vector M16 (spec/95_test_vectors.md): LDY 10H+X. -/
theorem test_M16 : shown (step (machine [0xD9, 0x10] [(0x12, 0x7F)] ⟨0x00, 0x02, 0x00, 0x7F, 0x00, 0xF000⟩)) =
    some (⟨0x00, 0x02, 0x7F, 0x7F, 0x00, 0xF002⟩, [(0x12, 0x7F)]) := by decide

/-- Vector M17 (spec/95_test_vectors.md): LDY !0FF00H. -/
theorem test_M17 : shown (step (machine [0xD8, 0x00, 0xFF] [(0xFF00, 0x00)] ⟨0x00, 0x00, 0x00, 0x7F, 0x00, 0xF000⟩)) =
    some (⟨0x00, 0x00, 0x00, 0x7F, 0x02, 0xF003⟩, []) := by decide

/-- Vector M18 (spec/95_test_vectors.md): STA 20H. -/
theorem test_M18 : shown (step (machine [0xE5, 0x20] [] ⟨0x00, 0x00, 0x00, 0x7F, 0x80, 0xF000⟩)) =
    some (⟨0x00, 0x00, 0x00, 0x7F, 0x80, 0xF002⟩, [(0x20, 0x00)]) := by decide

/-- Vector M19 (spec/95_test_vectors.md): STA !0040H+Y. -/
theorem test_M19 : shown (step (machine [0xF5, 0x40, 0x00] [] ⟨0xAB, 0x00, 0x02, 0x7F, 0x00, 0xF000⟩)) =
    some (⟨0xAB, 0x00, 0x02, 0x7F, 0x00, 0xF003⟩, [(0x42, 0xAB)]) := by decide

/-- Vector M20 (spec/95_test_vectors.md): STA [30H]+Y. -/
theorem test_M20 : shown (step (machine [0xF7, 0x30] [(0x30, 0x50), (0x31, 0x00)] ⟨0xCD, 0x00, 0x01, 0x7F, 0x00, 0xF000⟩)) =
    some (⟨0xCD, 0x00, 0x01, 0x7F, 0x00, 0xF002⟩, [(0x30, 0x50), (0x31, 0x00), (0x51, 0xCD)]) := by decide

/-- Vector M21 (spec/95_test_vectors.md): STA {X}+. -/
theorem test_M21 : shown (step (machine [0xFB] [] ⟨0x11, 0x7F, 0x00, 0x7F, 0x00, 0xF000⟩)) =
    some (⟨0x11, 0x80, 0x00, 0x7F, 0x00, 0xF001⟩, [(0x7F, 0x11)]) := by decide

/-- Vector M22 (spec/95_test_vectors.md): STX 20H+Y. -/
theorem test_M22 : shown (step (machine [0xED, 0x20] [] ⟨0x00, 0x42, 0x01, 0x7F, 0x00, 0xF000⟩)) =
    some (⟨0x00, 0x42, 0x01, 0x7F, 0x00, 0xF002⟩, [(0x21, 0x42)]) := by decide

/-- Vector M23 (spec/95_test_vectors.md): STY 20H+X. -/
theorem test_M23 : shown (step (machine [0xF9, 0x20] [] ⟨0x00, 0xFF, 0x24, 0x7F, 0x00, 0xF000⟩)) =
    some (⟨0x00, 0xFF, 0x24, 0x7F, 0x00, 0xF002⟩, [(0x1F, 0x24)]) := by decide

/-- Vector M24 (spec/95_test_vectors.md): TAX. -/
theorem test_M24 : shown (step (machine [0xE8] [] ⟨0x80, 0x00, 0x00, 0x7F, 0x00, 0xF000⟩)) =
    some (⟨0x80, 0x80, 0x00, 0x7F, 0x80, 0xF001⟩, []) := by decide

/-- Vector M25 (spec/95_test_vectors.md): TAY. -/
theorem test_M25 : shown (step (machine [0x9F] [] ⟨0x00, 0x00, 0x55, 0x7F, 0x00, 0xF000⟩)) =
    some (⟨0x00, 0x00, 0x00, 0x7F, 0x02, 0xF001⟩, []) := by decide

/-- Vector M26 (spec/95_test_vectors.md): TSPX. -/
theorem test_M26 : shown (step (machine [0xAE] [] ⟨0x00, 0x00, 0x00, 0x7F, 0x82, 0xF000⟩)) =
    some (⟨0x00, 0x7F, 0x00, 0x7F, 0x00, 0xF001⟩, []) := by decide

/-- Vector M27 (spec/95_test_vectors.md): TXA. -/
theorem test_M27 (h : Config.txaTxspFlags = none) :
    shown (step (machine [0xC8] [] ⟨0x99, 0x00, 0x00, 0x7F, 0x00, 0xF000⟩)) =
      some (⟨0x00, 0x00, 0x00, 0x7F, 0x02, 0xF001⟩, []) := by
  rw [show step (machine [0xC8] [] ⟨0x99, 0x00, 0x00, 0x7F, 0x00, 0xF000⟩) =
    .next { (machine [0xC8] [] ⟨0x99, 0x00, 0x00, 0x7F, 0x00, 0xF000⟩) with pc := 0xF001, a := 0x00, psw := transferFlags .txa 0x00 0x00 } from rfl,
    transferFlags_same (flaggedTransfer_default h)]
  decide

/-- Vector M28 (spec/95_test_vectors.md): TXSP. -/
theorem test_M28 (h : Config.txaTxspFlags = none) :
    shown (step (machine [0x8E] [] ⟨0x00, 0x00, 0x00, 0x7F, 0x80, 0xF000⟩)) =
      some (⟨0x00, 0x00, 0x00, 0x00, 0x80, 0xF001⟩, []) := by
  rw [show step (machine [0x8E] [] ⟨0x00, 0x00, 0x00, 0x7F, 0x80, 0xF000⟩) =
    .next { (machine [0x8E] [] ⟨0x00, 0x00, 0x00, 0x7F, 0x80, 0xF000⟩) with pc := 0xF001, sp := 0x00, psw := transferFlags .txsp 0x00 0x80 } from rfl,
    transferFlags_other (by rw [flaggedTransfer_default h]; decide)]
  decide

/-- Vector M29 (spec/95_test_vectors.md): TYA. -/
theorem test_M29 : shown (step (machine [0xBF] [] ⟨0x00, 0x00, 0xFF, 0x7F, 0x00, 0xF000⟩)) =
    some (⟨0xFF, 0x00, 0xFF, 0x7F, 0x80, 0xF001⟩, []) := by decide

/-- Vector M30 (spec/95_test_vectors.md): XAX. -/
theorem test_M30 : shown (step (machine [0xEE] [] ⟨0x00, 0x80, 0x00, 0x7F, 0x00, 0xF000⟩)) =
    some (⟨0x80, 0x00, 0x00, 0x7F, 0x00, 0xF001⟩, []) := by decide

/-- Vector M31 (spec/95_test_vectors.md): XAY. -/
theorem test_M31 : shown (step (machine [0xDE] [] ⟨0x12, 0x00, 0x34, 0x7F, 0x00, 0xF000⟩)) =
    some (⟨0x34, 0x00, 0x12, 0x7F, 0x00, 0xF001⟩, []) := by decide

/-- Vector M32 (spec/95_test_vectors.md): XYX. -/
theorem test_M32 : shown (step (machine [0xFE] [] ⟨0x00, 0x01, 0x02, 0x7F, 0x00, 0xF000⟩)) =
    some (⟨0x00, 0x02, 0x01, 0x7F, 0x00, 0xF001⟩, []) := by decide

/-- Vector M33 (spec/95_test_vectors.md): XMA 20H. -/
theorem test_M33 : shown (step (machine [0xBC, 0x20] [(0x20, 0x80)] ⟨0x00, 0x00, 0x00, 0x7F, 0x00, 0xF000⟩)) =
    some (⟨0x80, 0x00, 0x00, 0x7F, 0x80, 0xF002⟩, [(0x20, 0x00)]) := by decide

/-- Vector M34 (spec/95_test_vectors.md): XMA {X}. -/
theorem test_M34 : shown (step (machine [0xBB] [(0x21, 0x00)] ⟨0x7F, 0x21, 0x00, 0x7F, 0x80, 0xF000⟩)) =
    some (⟨0x00, 0x21, 0x00, 0x7F, 0x02, 0xF001⟩, [(0x21, 0x7F)]) := by decide

/-- Vector W1 (spec/95_test_vectors.md): ADDW 30H. -/
theorem test_W1 : shown (step (machine [0x1D, 0x30] [(0x30, 0x01), (0x31, 0x00)] ⟨0xFF, 0x00, 0xFF, 0x7F, 0x00, 0xF000⟩)) =
    some (⟨0x00, 0x00, 0x00, 0x7F, 0x0B, 0xF002⟩, [(0x30, 0x01), (0x31, 0x00)]) := by decide

/-- Vector W2 (spec/95_test_vectors.md): ADDW 30H. -/
theorem test_W2 : shown (step (machine [0x1D, 0x30] [(0x30, 0x01), (0x31, 0x00)] ⟨0xFF, 0x00, 0x7F, 0x7F, 0x01, 0xF000⟩)) =
    some (⟨0x00, 0x00, 0x80, 0x7F, 0xC8, 0xF002⟩, [(0x30, 0x01), (0x31, 0x00)]) := by decide

/-- Vector W6 (spec/95_test_vectors.md): SUBW 30H. -/
theorem test_W6 : shown (step (machine [0x3D, 0x30] [(0x30, 0x01), (0x31, 0x00)] ⟨0x00, 0x00, 0x00, 0x7F, 0x01, 0xF000⟩)) =
    some (⟨0xFF, 0x00, 0xFF, 0x7F, 0x80, 0xF002⟩, [(0x30, 0x01), (0x31, 0x00)]) := by decide

/-- Vector W7 (spec/95_test_vectors.md): SUBW 30H. -/
theorem test_W7 : shown (step (machine [0x3D, 0x30] [(0x30, 0x01), (0x31, 0x00)] ⟨0x00, 0x00, 0x80, 0x7F, 0x00, 0xF000⟩)) =
    some (⟨0xFF, 0x00, 0x7F, 0x7F, 0x41, 0xF002⟩, [(0x30, 0x01), (0x31, 0x00)]) := by decide

/-- Vector W10 (spec/95_test_vectors.md): CMPW 30H. -/
theorem test_W10 : shown (step (machine [0x5D, 0x30] [(0x30, 0x34), (0x31, 0x12)] ⟨0x34, 0x00, 0x12, 0x7F, 0x48, 0xF000⟩)) =
    some (⟨0x34, 0x00, 0x12, 0x7F, 0x4B, 0xF002⟩, [(0x30, 0x34), (0x31, 0x12)]) := by decide

/-- Vector W11 (spec/95_test_vectors.md): CMPW 30H. -/
theorem test_W11 : shown (step (machine [0x5D, 0x30] [(0x30, 0x34), (0x31, 0x12)] ⟨0x33, 0x00, 0x12, 0x7F, 0x00, 0xF000⟩)) =
    some (⟨0x33, 0x00, 0x12, 0x7F, 0x80, 0xF002⟩, [(0x30, 0x34), (0x31, 0x12)]) := by decide

/-- Vector W12 (spec/95_test_vectors.md): INCW 30H. -/
theorem test_W12 : shown (step (machine [0x9D, 0x30] [(0x30, 0xFF), (0x31, 0xFF)] ⟨0x00, 0x00, 0x00, 0x7F, 0x01, 0xF000⟩)) =
    some (⟨0x00, 0x00, 0x00, 0x7F, 0x03, 0xF002⟩, [(0x30, 0x00), (0x31, 0x00)]) := by decide

/-- Vector W14 (spec/95_test_vectors.md): INCW 7FH. -/
theorem test_W14 : stopped (step (machine [0x9D, 0x7F] [(0x7F, 0xFF)] ⟨0x00, 0x00, 0x00, 0x7F, 0x00, 0xF000⟩)) =
    some (.unimplementedAddress 0x80) := by decide

/-- Vector W15 (spec/95_test_vectors.md): DECW 30H. -/
theorem test_W15 : shown (step (machine [0xBD, 0x30] [(0x30, 0x00), (0x31, 0x00)] ⟨0x00, 0x00, 0x00, 0x7F, 0x00, 0xF000⟩)) =
    some (⟨0x00, 0x00, 0x00, 0x7F, 0x80, 0xF002⟩, [(0x30, 0xFF), (0x31, 0xFF)]) := by decide

/-- Vector W17 (spec/95_test_vectors.md): DECW 30H. -/
theorem test_W17 : shown (step (machine [0xBD, 0x30] [(0x30, 0x00), (0x31, 0x01)] ⟨0x00, 0x00, 0x00, 0x7F, 0x00, 0xF000⟩)) =
    some (⟨0x00, 0x00, 0x00, 0x7F, 0x00, 0xF002⟩, [(0x30, 0xFF), (0x31, 0x00)]) := by decide

/-- Vector W18 (spec/95_test_vectors.md): LDYA 30H. -/
theorem test_W18 : shown (step (machine [0x7D, 0x30] [(0x30, 0x00), (0x31, 0x80)] ⟨0x00, 0x00, 0x00, 0x7F, 0x00, 0xF000⟩)) =
    some (⟨0x00, 0x00, 0x80, 0x7F, 0x80, 0xF002⟩, [(0x30, 0x00), (0x31, 0x80)]) := by decide

/-- Vector W19 (spec/95_test_vectors.md): LDYA 30H. -/
theorem test_W19 : shown (step (machine [0x7D, 0x30] [(0x30, 0x00), (0x31, 0x00)] ⟨0x00, 0x00, 0x00, 0x7F, 0x80, 0xF000⟩)) =
    some (⟨0x00, 0x00, 0x00, 0x7F, 0x02, 0xF002⟩, [(0x30, 0x00), (0x31, 0x00)]) := by decide

/-- Vector W20 (spec/95_test_vectors.md): STYA 30H. -/
theorem test_W20 : shown (step (machine [0xDD, 0x30] [] ⟨0xCD, 0x00, 0xAB, 0x7F, 0x02, 0xF000⟩)) =
    some (⟨0xCD, 0x00, 0xAB, 0x7F, 0x02, 0xF002⟩, [(0x30, 0xCD), (0x31, 0xAB)]) := by decide

/-- Vector B1 (spec/95_test_vectors.md): SET1 20H.0. -/
theorem test_B1 : shown (step (machine [0x01, 0x20] [(0x20, 0x00)] ⟨0x00, 0x00, 0x00, 0x7F, 0x00, 0xF000⟩)) =
    some (⟨0x00, 0x00, 0x00, 0x7F, 0x00, 0xF002⟩, [(0x20, 0x01)]) := by decide

/-- Vector B2 (spec/95_test_vectors.md): SET1 20H.7. -/
theorem test_B2 : shown (step (machine [0xE1, 0x20] [(0x20, 0x01)] ⟨0x00, 0x00, 0x00, 0x7F, 0x00, 0xF000⟩)) =
    some (⟨0x00, 0x00, 0x00, 0x7F, 0x00, 0xF002⟩, [(0x20, 0x81)]) := by decide

/-- Vector B4 (spec/95_test_vectors.md): CLR1 20H.0. -/
theorem test_B4 : shown (step (machine [0x11, 0x20] [(0x20, 0xFF)] ⟨0x00, 0x00, 0x00, 0x7F, 0x00, 0xF000⟩)) =
    some (⟨0x00, 0x00, 0x00, 0x7F, 0x00, 0xF002⟩, [(0x20, 0xFE)]) := by decide

/-- Vector B5 (spec/95_test_vectors.md): CLR1 20H.5. -/
theorem test_B5 : shown (step (machine [0xB1, 0x20] [(0x20, 0x20)] ⟨0x00, 0x00, 0x00, 0x7F, 0x00, 0xF000⟩)) =
    some (⟨0x00, 0x00, 0x00, 0x7F, 0x00, 0xF002⟩, [(0x20, 0x00)]) := by decide

/-- Vector B8 (spec/95_test_vectors.md): BIT 20H. -/
theorem test_B8 : shown (step (machine [0x0C, 0x20] [(0x20, 0xC0)] ⟨0x0F, 0x00, 0x00, 0x7F, 0x00, 0xF000⟩)) =
    some (⟨0x0F, 0x00, 0x00, 0x7F, 0xC2, 0xF002⟩, [(0x20, 0xC0)]) := by decide

/-- Vector B9 (spec/95_test_vectors.md): BIT 20H. -/
theorem test_B9 : shown (step (machine [0x0C, 0x20] [(0x20, 0x41)] ⟨0xFF, 0x00, 0x00, 0x7F, 0x82, 0xF000⟩)) =
    some (⟨0xFF, 0x00, 0x00, 0x7F, 0x40, 0xF002⟩, [(0x20, 0x41)]) := by decide

/-- Vector B10 (spec/95_test_vectors.md): BIT !0F800H. -/
theorem test_B10 : shown (step (machine [0x1C, 0x00, 0xF8] [(0xF800, 0x80)] ⟨0x80, 0x00, 0x00, 0x7F, 0x00, 0xF000⟩)) =
    some (⟨0x80, 0x00, 0x00, 0x7F, 0x80, 0xF003⟩, []) := by decide

/-- Vector B11 (spec/95_test_vectors.md): TSET1 !0020H. -/
theorem test_B11 : shown (step (machine [0x3C, 0x20, 0x00] [(0x20, 0xF0)] ⟨0x0F, 0x00, 0x00, 0x7F, 0x00, 0xF000⟩)) =
    some (⟨0x0F, 0x00, 0x00, 0x7F, 0x00, 0xF003⟩, [(0x20, 0xFF)]) := by decide

/-- Vector B12 (spec/95_test_vectors.md): TSET1 !0020H. -/
theorem test_B12 : shown (step (machine [0x3C, 0x20, 0x00] [(0x20, 0x81)] ⟨0x81, 0x00, 0x00, 0x7F, 0x00, 0xF000⟩)) =
    some (⟨0x81, 0x00, 0x00, 0x7F, 0x02, 0xF003⟩, [(0x20, 0x81)]) := by decide

/-- Vector B13 (spec/95_test_vectors.md): TCLR1 !0020H. -/
theorem test_B13 : shown (step (machine [0x5C, 0x20, 0x00] [(0x20, 0xFF)] ⟨0x0F, 0x00, 0x00, 0x7F, 0x00, 0xF000⟩)) =
    some (⟨0x0F, 0x00, 0x00, 0x7F, 0x00, 0xF003⟩, [(0x20, 0xF0)]) := by decide

/-- Vector B14 (spec/95_test_vectors.md): TCLR1 !0020H. -/
theorem test_B14 : shown (step (machine [0x5C, 0x20, 0x00] [(0x20, 0x7F)] ⟨0x80, 0x00, 0x00, 0x7F, 0x00, 0xF000⟩)) =
    some (⟨0x80, 0x00, 0x00, 0x7F, 0x00, 0xF003⟩, [(0x20, 0x7F)]) := by decide

/-- Vector B15 (spec/95_test_vectors.md): CLRC. -/
theorem test_B15 : shown (step (machine [0x20] [] ⟨0x00, 0x00, 0x00, 0x7F, 0xFF, 0xF000⟩)) =
    some (⟨0x00, 0x00, 0x00, 0x7F, 0xFE, 0xF001⟩, []) := by decide

/-- Vector B16 (spec/95_test_vectors.md): SETC. -/
theorem test_B16 : shown (step (machine [0xA0] [] ⟨0x00, 0x00, 0x00, 0x7F, 0x00, 0xF000⟩)) =
    some (⟨0x00, 0x00, 0x00, 0x7F, 0x01, 0xF001⟩, []) := by decide

/-- Vector B17 (spec/95_test_vectors.md): CLRV. -/
theorem test_B17 : shown (step (machine [0x80] [] ⟨0x00, 0x00, 0x00, 0x7F, 0xFF, 0xF000⟩)) =
    some (⟨0x00, 0x00, 0x00, 0x7F, 0xB7, 0xF001⟩, []) := by decide

/-- Vector B18 (spec/95_test_vectors.md): SETG. -/
theorem test_B18 : shown (step (machine [0xC0] [] ⟨0x00, 0x00, 0x00, 0x7F, 0x00, 0xF000⟩)) =
    some (⟨0x00, 0x00, 0x00, 0x7F, 0x20, 0xF001⟩, []) := by decide

/-- Vector B19 (spec/95_test_vectors.md): CLRG. -/
theorem test_B19 : shown (step (machine [0x40] [] ⟨0x00, 0x00, 0x00, 0x7F, 0xFF, 0xF000⟩)) =
    some (⟨0x00, 0x00, 0x00, 0x7F, 0xDF, 0xF001⟩, []) := by decide

/-- Vector J1 (spec/95_test_vectors.md): BRA $ (rel=FEH). -/
theorem test_J1 : shown (step (machine [0x2F, 0xFE] [] ⟨0x00, 0x00, 0x00, 0x7F, 0x00, 0xF000⟩)) =
    some (⟨0x00, 0x00, 0x00, 0x7F, 0x00, 0xF000⟩, []) := by decide

/-- Vector J3 (spec/95_test_vectors.md): BRA -128. -/
theorem test_J3 : shown (step (machine [0x2F, 0x80] [] ⟨0x00, 0x00, 0x00, 0x7F, 0x00, 0xF000⟩)) =
    some (⟨0x00, 0x00, 0x00, 0x7F, 0x00, 0xEF82⟩, []) := by decide

/-- Vector J4 (spec/95_test_vectors.md): BEQ +10H (taken). -/
theorem test_J4 : shown (step (machine [0xF0, 0x10] [] ⟨0x00, 0x00, 0x00, 0x7F, 0x02, 0xF000⟩)) =
    some (⟨0x00, 0x00, 0x00, 0x7F, 0x02, 0xF012⟩, []) := by decide

/-- Vector J5 (spec/95_test_vectors.md): BEQ +10H (not taken). -/
theorem test_J5 : shown (step (machine [0xF0, 0x10] [] ⟨0x00, 0x00, 0x00, 0x7F, 0xFD, 0xF000⟩)) =
    some (⟨0x00, 0x00, 0x00, 0x7F, 0xFD, 0xF002⟩, []) := by decide

/-- Vector J6 (spec/95_test_vectors.md): BNE -7 (taken), at F008H. -/
theorem test_J6 : shown (step (machine [0x70, 0xF9] [] ⟨0x00, 0x00, 0x00, 0x7F, 0x01, 0xF008⟩)) =
    some (⟨0x00, 0x00, 0x00, 0x7F, 0x01, 0xF003⟩, []) := by decide

/-- Vector J7 (spec/95_test_vectors.md): BCC +2. -/
theorem test_J7 : shown (step (machine [0x50, 0x02] [] ⟨0x00, 0x00, 0x00, 0x7F, 0x01, 0xF000⟩)) =
    some (⟨0x00, 0x00, 0x00, 0x7F, 0x01, 0xF002⟩, []) := by decide

/-- Vector J8 (spec/95_test_vectors.md): BCS +2. -/
theorem test_J8 : shown (step (machine [0xD0, 0x02] [] ⟨0x00, 0x00, 0x00, 0x7F, 0x01, 0xF000⟩)) =
    some (⟨0x00, 0x00, 0x00, 0x7F, 0x01, 0xF004⟩, []) := by decide

/-- Vector J9 (spec/95_test_vectors.md): BMI +2. -/
theorem test_J9 : shown (step (machine [0x90, 0x02] [] ⟨0x00, 0x00, 0x00, 0x7F, 0x80, 0xF000⟩)) =
    some (⟨0x00, 0x00, 0x00, 0x7F, 0x80, 0xF004⟩, []) := by decide

/-- Vector J10 (spec/95_test_vectors.md): BPL +2. -/
theorem test_J10 : shown (step (machine [0x10, 0x02] [] ⟨0x00, 0x00, 0x00, 0x7F, 0x80, 0xF000⟩)) =
    some (⟨0x00, 0x00, 0x00, 0x7F, 0x80, 0xF002⟩, []) := by decide

/-- Vector J11 (spec/95_test_vectors.md): BVC +2. -/
theorem test_J11 : shown (step (machine [0x30, 0x02] [] ⟨0x00, 0x00, 0x00, 0x7F, 0x40, 0xF000⟩)) =
    some (⟨0x00, 0x00, 0x00, 0x7F, 0x40, 0xF002⟩, []) := by decide

/-- Vector J12 (spec/95_test_vectors.md): BVS +2. -/
theorem test_J12 : shown (step (machine [0xB0, 0x02] [] ⟨0x00, 0x00, 0x00, 0x7F, 0x40, 0xF000⟩)) =
    some (⟨0x00, 0x00, 0x00, 0x7F, 0x40, 0xF004⟩, []) := by decide

/-- Vector J13 (spec/95_test_vectors.md): BBS A.7,+5. -/
theorem test_J13 : shown (step (machine [0xE2, 0x05] [] ⟨0x80, 0x00, 0x00, 0x7F, 0x00, 0xF000⟩)) =
    some (⟨0x80, 0x00, 0x00, 0x7F, 0x00, 0xF007⟩, []) := by decide

/-- Vector J14 (spec/95_test_vectors.md): BBS A.0,+5. -/
theorem test_J14 : shown (step (machine [0x02, 0x05] [] ⟨0xFE, 0x00, 0x00, 0x7F, 0x00, 0xF000⟩)) =
    some (⟨0xFE, 0x00, 0x00, 0x7F, 0x00, 0xF002⟩, []) := by decide

/-- Vector J15 (spec/95_test_vectors.md): BBC A.3,+5. -/
theorem test_J15 : shown (step (machine [0x72, 0x05] [] ⟨0xF7, 0x00, 0x00, 0x7F, 0x00, 0xF000⟩)) =
    some (⟨0xF7, 0x00, 0x00, 0x7F, 0x00, 0xF007⟩, []) := by decide

/-- Vector J16 (spec/95_test_vectors.md): BBS 20H.2,+4. -/
theorem test_J16 : shown (step (machine [0x43, 0x20, 0x04] [(0x20, 0x04)] ⟨0x00, 0x00, 0x00, 0x7F, 0x00, 0xF000⟩)) =
    some (⟨0x00, 0x00, 0x00, 0x7F, 0x00, 0xF007⟩, [(0x20, 0x04)]) := by decide

/-- Vector J17 (spec/95_test_vectors.md): BBC 20H.2,+4. -/
theorem test_J17 : shown (step (machine [0x53, 0x20, 0x04] [(0x20, 0x04)] ⟨0x00, 0x00, 0x00, 0x7F, 0x00, 0xF000⟩)) =
    some (⟨0x00, 0x00, 0x00, 0x7F, 0x00, 0xF003⟩, [(0x20, 0x04)]) := by decide

/-- Vector J18 (spec/95_test_vectors.md): CBNE 20H,+5. -/
theorem test_J18 : shown (step (machine [0xFD, 0x20, 0x05] [(0x20, 0x11)] ⟨0x10, 0x00, 0x00, 0x7F, 0x02, 0xF000⟩)) =
    some (⟨0x10, 0x00, 0x00, 0x7F, 0x02, 0xF008⟩, [(0x20, 0x11)]) := by decide

/-- Vector J19 (spec/95_test_vectors.md): CBNE 20H,+5. -/
theorem test_J19 : shown (step (machine [0xFD, 0x20, 0x05] [(0x20, 0x10)] ⟨0x10, 0x00, 0x00, 0x7F, 0x00, 0xF000⟩)) =
    some (⟨0x10, 0x00, 0x00, 0x7F, 0x00, 0xF003⟩, [(0x20, 0x10)]) := by decide

/-- Vector J20 (spec/95_test_vectors.md): CBNE 20H+X,-3. -/
theorem test_J20 : shown (step (machine [0x8D, 0x20, 0xFD] [(0x21, 0x01)] ⟨0x00, 0x01, 0x00, 0x7F, 0x00, 0xF000⟩)) =
    some (⟨0x00, 0x01, 0x00, 0x7F, 0x00, 0xF000⟩, [(0x21, 0x01)]) := by decide

/-- Vector J22 (spec/95_test_vectors.md): DBNE 20H,-3. -/
theorem test_J22 : shown (step (machine [0xAC, 0x20, 0xFD] [(0x20, 0x01)] ⟨0x00, 0x00, 0x00, 0x7F, 0x00, 0xF000⟩)) =
    some (⟨0x00, 0x00, 0x00, 0x7F, 0x00, 0xF003⟩, [(0x20, 0x00)]) := by decide

/-- Vector J23 (spec/95_test_vectors.md): DBNE 20H,-3. -/
theorem test_J23 : shown (step (machine [0xAC, 0x20, 0xFD] [(0x20, 0x00)] ⟨0x00, 0x00, 0x00, 0x7F, 0x00, 0xF000⟩)) =
    some (⟨0x00, 0x00, 0x00, 0x7F, 0x00, 0xF000⟩, [(0x20, 0xFF)]) := by decide

/-- Vector J24 (spec/95_test_vectors.md): DBNE Y,-2. -/
theorem test_J24 : shown (step (machine [0x7B, 0xFE] [] ⟨0x00, 0x00, 0x01, 0x7F, 0x80, 0xF000⟩)) =
    some (⟨0x00, 0x00, 0x00, 0x7F, 0x80, 0xF002⟩, []) := by decide

/-- Vector J25 (spec/95_test_vectors.md): DBNE Y,-2. -/
theorem test_J25 : shown (step (machine [0x7B, 0xFE] [] ⟨0x00, 0x00, 0x00, 0x7F, 0x00, 0xF000⟩)) =
    some (⟨0x00, 0x00, 0xFF, 0x7F, 0x00, 0xF000⟩, []) := by decide

/-- Vector J26 (spec/95_test_vectors.md): JMP !0F123H. -/
theorem test_J26 : shown (step (machine [0x1B, 0x23, 0xF1] [] ⟨0x00, 0x00, 0x00, 0x7F, 0x00, 0xF000⟩)) =
    some (⟨0x00, 0x00, 0x00, 0x7F, 0x00, 0xF123⟩, []) := by decide

/-- Vector J27 (spec/95_test_vectors.md): JMP [35H]. -/
theorem test_J27 : shown (step (machine [0x3F, 0x35] [(0x35, 0x00), (0x36, 0xF1)] ⟨0x00, 0x00, 0x00, 0x7F, 0x00, 0xF000⟩)) =
    some (⟨0x00, 0x00, 0x00, 0x7F, 0x00, 0xF100⟩, [(0x35, 0x00), (0x36, 0xF1)]) := by decide

/-- Vector J28 (spec/95_test_vectors.md): JMP [!0F025H]. -/
theorem test_J28 : shown (step (machine [0x1F, 0x25, 0xF0] [(0xF025, 0x40), (0xF026, 0xF2)] ⟨0x00, 0x00, 0x00, 0x7F, 0x00, 0xF000⟩)) =
    some (⟨0x00, 0x00, 0x00, 0x7F, 0x00, 0xF240⟩, []) := by decide

/-- Vector J29 (spec/95_test_vectors.md): CALL !0F100H, at F00DH. -/
theorem test_J29 : shown (step (machine [0x3B, 0x00, 0xF1] [] ⟨0x00, 0x00, 0x00, 0x7F, 0x00, 0xF00D⟩)) =
    some (⟨0x00, 0x00, 0x00, 0x7D, 0x00, 0xF100⟩, [(0x7E, 0x10), (0x7F, 0xF0)]) := by decide

/-- Vector J35 (spec/95_test_vectors.md): CALL !0F100H (SP=00H). -/
theorem test_J35 : stopped (step (machine [0x3B, 0x00, 0xF1] [] ⟨0x00, 0x00, 0x00, 0x00, 0x00, 0xF000⟩)) =
    some (.unimplementedAddress 0xFF) := by decide

/-- Vector J30 (spec/95_test_vectors.md): CALL [35H], at F020H. -/
theorem test_J30 : shown (step (machine [0x5F, 0x35] [(0x35, 0x00), (0x36, 0xF2)] ⟨0x00, 0x00, 0x00, 0x7F, 0x00, 0xF020⟩)) =
    some (⟨0x00, 0x00, 0x00, 0x7D, 0x00, 0xF200⟩, [(0x35, 0x00), (0x36, 0xF2), (0x7E, 0x22), (0x7F, 0xF0)]) := by decide

/-- Vector J31 (spec/95_test_vectors.md): PCALL 35H, at F030H. -/
theorem test_J31 : shown (step (machine [0x4F, 0x35] [] ⟨0x00, 0x00, 0x00, 0x7F, 0x00, 0xF030⟩)) =
    some (⟨0x00, 0x00, 0x00, 0x7D, 0x00, 0xFF35⟩, [(0x7E, 0x32), (0x7F, 0xF0)]) := by decide

/-- Vector J32 (spec/95_test_vectors.md): TCALL 4, at F040H. -/
theorem test_J32 : shown (step (machine [0x4A] [(0xFFD6, 0x00), (0xFFD7, 0xF3)] ⟨0x00, 0x00, 0x00, 0x7F, 0x00, 0xF040⟩)) =
    some (⟨0x00, 0x00, 0x00, 0x7D, 0x00, 0xF300⟩, [(0x7E, 0x41), (0x7F, 0xF0)]) := by decide

/-- Vector J34 (spec/95_test_vectors.md): TCALL 0. -/
theorem test_J34 : shown (step (machine [0x0A] [(0xFFDE, 0x00), (0xFFDF, 0xF4)] ⟨0x00, 0x00, 0x00, 0x02, 0x04, 0xF000⟩)) =
    some (⟨0x00, 0x00, 0x00, 0x00, 0x04, 0xF400⟩, [(0x01, 0x01), (0x02, 0xF0)]) := by decide

/-- Vector C1 (spec/95_test_vectors.md): BRK, at F010H. -/
theorem test_C1 (h : Config.brkPushedB = none) :
    shown (step (machine [0x0F] [(0xFFDE, 0x00), (0xFFDF, 0xF4)] ⟨0x00, 0x00, 0x00, 0x7F, 0x04, 0xF010⟩)) =
      some (⟨0x00, 0x00, 0x00, 0x7C, 0x10, 0xF400⟩, [(0x7D, 0x14), (0x7E, 0x11), (0x7F, 0xF0)]) := by
  rw [show step (machine [0x0F] [(0xFFDE, 0x00), (0xFFDF, 0xF4)] ⟨0x00, 0x00, 0x00, 0x7F, 0x04, 0xF010⟩) =
    (takeException (setFlag .b (brkPushedB || flag .b 0x04) 0x04) (setFlag .i false (setFlag .b true 0x04)) 0xFFDE
      ((machine [0x0F] [(0xFFDE, 0x00), (0xFFDF, 0xF4)] ⟨0x00, 0x00, 0x00, 0x7F, 0x04, 0xF010⟩).withPc 0xF011)).done (fun _ t => t) from rfl,
    brkPushedB_default h]
  decide

/-- Vector C2 (spec/95_test_vectors.md): BRK, at F0FFH. -/
theorem test_C2 (h : Config.brkPushedB = none) :
    shown (step (machine [0x0F] [(0xFFDE, 0x00), (0xFFDF, 0xF4)] ⟨0x00, 0x00, 0x00, 0x7F, 0x83, 0xF0FF⟩)) =
      some (⟨0x00, 0x00, 0x00, 0x7C, 0x93, 0xF400⟩, [(0x7D, 0x93), (0x7E, 0x00), (0x7F, 0xF1)]) := by
  rw [show step (machine [0x0F] [(0xFFDE, 0x00), (0xFFDF, 0xF4)] ⟨0x00, 0x00, 0x00, 0x7F, 0x83, 0xF0FF⟩) =
    (takeException (setFlag .b (brkPushedB || flag .b 0x83) 0x83) (setFlag .i false (setFlag .b true 0x83)) 0xFFDE
      ((machine [0x0F] [(0xFFDE, 0x00), (0xFFDF, 0xF4)] ⟨0x00, 0x00, 0x00, 0x7F, 0x83, 0xF0FF⟩).withPc 0xF100)).done (fun _ t => t) from rfl,
    brkPushedB_default h]
  decide

/-- Vector C3 (spec/95_test_vectors.md): RETI. -/
theorem test_C3 : shown (step (machine [0x7F] [(0x7D, 0x14), (0x7E, 0x51), (0x7F, 0xF0)] ⟨0x00, 0x00, 0x00, 0x7C, 0x00, 0xF000⟩)) =
    some (⟨0x00, 0x00, 0x00, 0x7F, 0x14, 0xF051⟩, [(0x7D, 0x14), (0x7E, 0x51), (0x7F, 0xF0)]) := by decide

/-- Vector C4 (spec/95_test_vectors.md): RET. -/
theorem test_C4 : shown (step (machine [0x6F] [(0x7E, 0x10), (0x7F, 0xF0)] ⟨0x00, 0x00, 0x00, 0x7D, 0x83, 0xF000⟩)) =
    some (⟨0x00, 0x00, 0x00, 0x7F, 0x83, 0xF010⟩, [(0x7E, 0x10), (0x7F, 0xF0)]) := by decide

/-- Vector C5 (spec/95_test_vectors.md): PUSH A. -/
theorem test_C5 : shown (step (machine [0x0E] [] ⟨0x5A, 0x00, 0x00, 0x7F, 0x00, 0xF000⟩)) =
    some (⟨0x5A, 0x00, 0x00, 0x7E, 0x00, 0xF001⟩, [(0x7F, 0x5A)]) := by decide

/-- Vector C11 (spec/95_test_vectors.md): PUSH A (SP=0BFH). -/
theorem test_C11 : stopped (step (machine [0x0E] [] ⟨0x01, 0x00, 0x00, 0xBF, 0x00, 0xF000⟩)) =
    some (.unimplementedAddress 0xBF) := by decide

/-- Vector C6 (spec/95_test_vectors.md): PUSH PSW. -/
theorem test_C6 : shown (step (machine [0x6E] [] ⟨0x00, 0x00, 0x00, 0x7F, 0x14, 0xF000⟩)) =
    some (⟨0x00, 0x00, 0x00, 0x7E, 0x14, 0xF001⟩, [(0x7F, 0x14)]) := by decide

/-- Vector C7 (spec/95_test_vectors.md): PUSH X (SP=00H). -/
theorem test_C7 : shown (step (machine [0x2E] [] ⟨0x00, 0x01, 0x00, 0x00, 0x00, 0xF000⟩)) =
    some (⟨0x00, 0x01, 0x00, 0xFF, 0x00, 0xF001⟩, [(0x00, 0x01)]) := by decide

/-- Vector C8 (spec/95_test_vectors.md): POP A. -/
theorem test_C8 : shown (step (machine [0x0D] [(0x7D, 0x00)] ⟨0x5A, 0x00, 0x00, 0x7C, 0x80, 0xF000⟩)) =
    some (⟨0x00, 0x00, 0x00, 0x7D, 0x80, 0xF001⟩, [(0x7D, 0x00)]) := by decide

/-- Vector C9 (spec/95_test_vectors.md): POP PSW. -/
theorem test_C9 : shown (step (machine [0x6D] [(0x7F, 0xFF)] ⟨0x00, 0x00, 0x00, 0x7E, 0x00, 0xF000⟩)) =
    some (⟨0x00, 0x00, 0x00, 0x7F, 0xFF, 0xF001⟩, [(0x7F, 0xFF)]) := by decide

/-- Vector C10 (spec/95_test_vectors.md): POP Y (SP=7FH). -/
theorem test_C10 : stopped (step (machine [0x4D] [] ⟨0x00, 0x00, 0x00, 0x7F, 0x00, 0xF000⟩)) =
    some (.unimplementedAddress 0x80) := by decide

/-- Vector C12 (spec/95_test_vectors.md): EI. -/
theorem test_C12 : shown (step (machine [0xE0] [] ⟨0x00, 0x00, 0x00, 0x7F, 0x00, 0xF000⟩)) =
    some (⟨0x00, 0x00, 0x00, 0x7F, 0x04, 0xF001⟩, []) := by decide

/-- Vector C13 (spec/95_test_vectors.md): DI. -/
theorem test_C13 : shown (step (machine [0x60] [] ⟨0x00, 0x00, 0x00, 0x7F, 0xFF, 0xF000⟩)) =
    some (⟨0x00, 0x00, 0x00, 0x7F, 0xFB, 0xF001⟩, []) := by decide

/-- Vector C14 (spec/95_test_vectors.md): NOP. -/
theorem test_C14 : shown (step (machine [0xFF] [] ⟨0x00, 0x00, 0x00, 0x7F, 0xA5, 0xF000⟩)) =
    some (⟨0x00, 0x00, 0x00, 0x7F, 0xA5, 0xF001⟩, []) := by decide

/-! ## Vectors of the interrupt, power-saving and reset table (spec/95_test_vectors.md, rows O and I) -/

/-- A state with PC, SP = 7FH and PSW as given and the vectors of the I rows. -/
def interrupted (pc : Word) (psw : Byte) (q : Interrupts) : State :=
  (machine []
    [(0xFFE6, 0x00), (0xFFE7, 0xF6), (0xFFEA, 0x00), (0xFFEB, 0xF5), (0xFFF4, 0x00), (0xFFF5, 0xF3), (0xFFF6, 0x00),
      (0xFFF7, 0xF2), (0xFFFA, 0x40), (0xFFFB, 0xF0)] ⟨0, 0, 0, 0x7F, psw, pc⟩).withIrq q

/-- Request flags of a next state. -/
def requests : Result → Option (BitVec 4 × BitVec 3)
  | .next t => some (t.irq.irqh, t.irq.irql)
  | .fault _ | .refused _ => none

/-- Row I2: of INT0 and timer 1 the first is accepted, the other stays requested. -/
theorem test_I2 :
    let r := step (interrupted 0xF010 0x04 { State.reset.irq with ienh := 0b1001, irqh := 0b1001 })
    shown r = some (⟨0, 0, 0, 0x7C, 0x00, 0xF040⟩, [(0x7D, 0x04), (0x7E, 0x10), (0x7F, 0xF0)]) ∧
      requests r = some (0b0001, 0) := by decide

/-- Row I5: the A/D converter before the basic interval timer. -/
theorem test_I5 :
    let r := step (interrupted 0xF010 0x04 { State.reset.irq with ienl := 0b101, irql := 0b101 })
    shown r = some (⟨0, 0, 0, 0x7C, 0x00, 0xF500⟩, [(0x7D, 0x04), (0x7E, 0x10), (0x7F, 0xF0)]) ∧
      requests r = some (0, 0b001) := by decide

/-- Row I6: IRQH before IRQL. -/
theorem test_I6 :
    let r := step (interrupted 0xF010 0x04 { State.reset.irq with ienh := 1, ienl := 4, irqh := 1, irql := 4 })
    shown r = some (⟨0, 0, 0, 0x7C, 0x00, 0xF300⟩, [(0x7D, 0x04), (0x7E, 0x10), (0x7F, 0xF0)]) ∧
      requests r = some (0, 0b100) := by decide

/-- Row I15: STOP with a release source's flag and enable bit set acts as a NOP. -/
theorem test_I15 :
    (match step ((machine [0xEF] [] ⟨0, 0, 0, 0x7F, 0, 0xF020⟩).withIrq { State.reset.irq with ienh := 8, irqh := 8 }) with
      | .next t => some (t.mode, t.pc, t.irq.irqh)
      | _ => none) = some (.run, 0xF021, 8) := by decide

/-- Row I11: STOP with CKCTLR[6:5] = 00. -/
theorem test_I11 :
    (match step (machine [0xEF] [] ⟨0, 0, 0, 0x7F, 0, 0xF020⟩) with
      | .next t => some (t.mode, t.pc)
      | _ => none) = some (.stop, 0xF021) := by decide

/-- Row O11: opcode 00H is refused. -/
theorem test_O11 :
    (match step (machine [0x00] [] ⟨0, 0, 0, 0x7F, 0, 0xF000⟩) with
      | .refused e => some e
      | _ => none) = some .unassignedOpcode := by decide

/-- Row O13: 00C8H holds no register. -/
theorem test_O13 : stopped (step (machine [0xC5, 0xC8] [] ⟨0, 0, 0, 0x7F, 0, 0xF000⟩)) =
    some (.unimplementedAddress 0xC8) := by decide

/-- Row O14: ADCR is read-only. -/
theorem test_O14 : stopped (step (machine [0xE4, 0x01, 0xEB] [] ⟨0, 0, 0, 0x7F, 0, 0xF000⟩)) =
    some (.writeToReadOnlyRegister 0xEB) := by decide

/-- Row O15: the read side of 00ECH is BITR. -/
theorem test_O15 :
    let s := machine [0xC5, 0xEC] [] ⟨0, 0, 0, 0x7F, 0, 0xF000⟩
    shown (step (s.withClock { s.clock with bitr := 0x5A })) = some (⟨0x5A, 0, 0, 0x7F, 0, 0xF002⟩, []) := by decide

/-- Row O17: a store to program memory. -/
theorem test_O17 : stopped (step (machine [0xE7, 0x00, 0xF8] [] ⟨1, 0, 0, 0x7F, 0, 0xF000⟩)) =
    some (.writeToProgramMemory 0xF800) := by decide

/-- Row O18: after the NOP at FFFFH the next fetch is from 0000H. -/
theorem test_O18 :
    (match step (machine [0xFF] [] ⟨0, 0, 0, 0x7F, 0, 0xFFFF⟩) with
      | .next t => stopped (step t)
      | _ => none) = some (.fetchOutsideProgramMemory 0x0000) := by decide

/-- Row B7: CKCTLR is write-only. -/
theorem test_B7 : stopped (step (machine [0x11, 0xEC] [] ⟨0, 0, 0, 0x7F, 0, 0xF000⟩)) =
    some (.rmwOnWriteOnlyRegister 0xEC) := by decide

/-- Row A56: the quotient and the remainder of DIV. -/
theorem test_A56 :
    (match step (machine [0x9B] [] ⟨0xFF, 0x0A, 0x09, 0x7F, 0x41, 0xF000⟩) with
      | .next t => some (t.a, t.x, t.y)
      | _ => none) = some (0xFF, 0x0A, 0x09) := by decide

/-- Row O3: DIV by zero sets V, `DIV_FN` supplied or not. -/
theorem test_O3 :
    (match exec .div (machine [0x9B] [] ⟨0x34, 0x00, 0x12, 0x7F, 0x01, 0xF000⟩) with
      | .next t => some (flag .v t.psw, flag .c t.psw, t.x)
      | _ => none) = some (true, true, 0x00) := by
  obtain ⟨k, hk⟩ := divOpen_ok (machine [0x9B] [] ⟨0x34, 0x00, 0x12, 0x7F, 0x01, 0xF000⟩)
  have hx : (machine [0x9B] [] ⟨0x34, 0x00, 0x12, 0x7F, 0x01, 0xF000⟩).x = 0 := rfl
  simp only [exec, execDiv, hx, ne_eq, not_true_eq_false, false_and, if_false, hk]
  simp
  decide

/-- The first step of a run reads the reset vector (R552, log entry 19). -/
theorem test_reset_vector :
    (match step { State.reset with mem := [(0xFFFE, 0x00), (0xFFFF, 0xF0)] } with
      | .next t => some (t.pc, t.bootPending)
      | _ => none) = some (0xF000, false) := by decide

/-- Example E17 (spec/95_test_vectors.md): LDM CKCTLR,#09H clears BITR and WDTON. -/
theorem test_E17 :
    let s := machine [0xE4, 0x09, 0xEC] [] ⟨0, 0, 0, 0x7F, 0, 0xF000⟩
    (match step (s.withClock { s.clock with bitr := 0x55 }) with
      | .next t => some t.clock
      | _ => none) = some { State.reset.clock with bts := 1, wdton := false, bitr := 0 } := by decide

/-- Example E19: TM0 = 17H after 0CH clears and starts timer 0. -/
theorem test_E19 :
    let s := machine [0xE4, 0x17, 0xD0] [] ⟨0, 0, 0, 0x7F, 0, 0xF000⟩
    (match step (s.withTimers { s.timers with tm0 := 0x0C, t0 := 0x33 }) with
      | .next t => some (t.timers.tm0, t.timers.t0)
      | _ => none) = some (0x17, 0) := by decide

/-! ## Every obligation with hypotheses has inputs that meet them all -/

/-- Registers and memory of the witnesses: A = 12H, X = 10H, Y = 01H, SP = 7FH, G = 0 and I = 0, a NOP at F000H. -/
def idle : State :=
  machine [0xFF] [(0x10, 0x40), (0x20, 0x30), (0x21, 0x00), (0x30, 0x99), (0x7F, 0x55)]
    ⟨0x12, 0x10, 0x01, 0x7F, 0x00, 0xF000⟩

/-- The same with a script. -/
def scripted (turns : List Turn) : State := idle.withSchedule turns

/-- The same with I = 1 and INT0 (and nothing else) requested and enabled. -/
def asked : State := (idle.withPsw 0x04).withIrq { idle.irq with irqh := 8, ienh := 8 }

/-- The same in a power-saving mode. -/
def stoppedIn (m : Mode) : State := idle.withMode m

theorem witness_DecodeOfEncode :
    (Instr.tcall 15).wellFormed = true ∧ (Instr.callAbs 0xFFFF).wellFormed = true ∧
      (Instr.bbsDp 7 0xFF 0x80).wellFormed = true := by decide

theorem witness_DecodeOfEncode_mbit (b1 b2 : Byte) :
    (Instr.ldc b1 b2).wellFormed = true ∨ (Instr.ldcb b1 b2).wellFormed = true := by
  simp only [Instr.wellFormed, Instr.wellFormedIn]
  cases (Config.mbitDecode b1 b2).invert <;> simp

theorem witness_EncodeOfDecode :
    decode [0x4A, 0xFF] = .ok (.tcall 4, [0xFF]) ∧ decode [0xE4, 0x55, 0x35] = .ok (.ldm 0x35 0x55, []) :=
  ⟨rfl, rfl⟩

theorem witness_StepRunsDecodedInstruction :
    runsInstruction idle ∧ cpuMoves idle [] [] ∧ decode [0xFF] = .ok (.nop, []) ∧
      ∀ k, k < [(0xFF : Byte)].length → memFetch (idle.pc + BitVec.ofNat 16 k) idle = .ok ([0xFF].getD k 0) idle := by
  refine ⟨⟨rfl, rfl, rfl, rfl⟩, .inr ⟨rfl, rfl, rfl⟩, rfl, fun k hk => ?_⟩
  obtain rfl : k = 0 := by simpa using hk
  rfl

/-- The same with a script, and an instruction that ends at the top of the program memory. -/
def top : State :=
  (machine [0x1B, 0x00, 0xF0] [] ⟨0, 0, 0, 0, 0, 0xFFFD⟩).withSchedule [.cpu [.buzClock]]

theorem witness_StepRunsDecodedInstruction_scripted :
    runsInstruction top ∧ cpuMoves top [.buzClock] [] ∧ decode [0x1B, 0x00, 0xF0] = .ok (.jmpAbs 0xF000, []) ∧
      ∀ k, k < 3 → memFetch (top.pc + BitVec.ofNat 16 k) top = .ok ([0x1B, 0x00, 0xF0].getD k 0) top := by
  refine ⟨⟨rfl, rfl, rfl, rfl⟩, .inl rfl, rfl, fun k hk => ?_⟩
  have : k = 0 ∨ k = 1 ∨ k = 2 := by omega
  rcases this with rfl | rfl | rfl <;> rfl

theorem witness_StepKeepsInvariant :
    (idle.invariant ∧ ∃ t, step idle = .next t) ∧
      (scripted [.env (.resetPin [(0x7F, 0x00)])]).invariant ∧
      ∃ t, step (scripted [.env (.resetPin [(0x7F, 0x00)])]) = .next t :=
  ⟨⟨⟨rfl, rfl⟩, _, rfl⟩, ⟨rfl, rfl⟩, _, rfl⟩

theorem witness_StepKeepsProgram :
    (∃ t, step idle = .next t) ∧ ∃ t, step (scripted [.env .resetPowerOn]) = .next t := ⟨⟨_, rfl⟩, _, rfl⟩

theorem witness_FlagWriters : (∃ t, exec .setc idle = .next t) ∧ Flag.i ∉ flagColumn .setc := ⟨⟨_, rfl⟩, by decide⟩

theorem witness_RegisterWriters :
    (∃ t, exec .nop idle = .next t) ∧ writesA .nop = false ∧ writesX .nop = false ∧ writesY .nop = false ∧
      writesSp .nop = false ∧ loadsPc .nop = false ∧ writesMemory .nop = false ∧ Instr.nop ≠ .stop :=
  ⟨⟨_, rfl⟩, by decide, by decide, by decide, by decide, by decide, by decide, by decide⟩

theorem witness_AccessMap :
    (inRam 0x0000 ∧ inRam 0x007F) ∧
      (idle.device.romBase ≤ (0xF000 : Word).toNat ∧ idle.device.romBase ≤ (0xFFFF : Word).toNat) ∧
      (0x80 ≤ (0x0080 : Word).toNat ∧ (0x00BF : Word).toNat < 0xC0) ∧
      (0x100 ≤ (0x0100 : Word).toNat ∧ (0xEFFF : Word).toNat < idle.device.romBase) ∧
      (unoccupied 0x00C8 ∧ unoccupied 0x00FF) ∧
      (0xC0 ≤ (0x00C0 : Word).toNat ∧ (0x00EF : Word).toNat < 0x100 ∧ ¬ unoccupied 0x00C0 ∧ ¬ unoccupied 0x00EB ∧
        ¬ unoccupied 0x00EF) := by
  simp only [inRam, unoccupied]
  decide

theorem witness_OperandAddresses :
    flag .g idle.psw = false ∧
      (memRead (zext16 (0x10 + idle.x)) idle = .ok 0x30 idle ∧
        memRead (zext16 (0x10 + idle.x + 1)) idle = .ok 0x00 idle) ∧
      (memRead (zext16 0x20) idle = .ok 0x30 idle ∧ memRead (zext16 (0x20 + 1)) idle = .ok 0x00 idle) ∧
      effectiveAddress (.dpX 0xF0) idle = .ok 0x0000 idle := ⟨rfl, ⟨rfl, rfl⟩, ⟨rfl, rfl⟩, rfl⟩

theorem witness_ForbiddenFetchAndDirectPage :
    idle.device.romBase ≤ (0xF000 : Word).toNat ∧ (0xEFFF : Word).toNat < idle.device.romBase ∧
      flag .g (idle.withPsw 0x20).psw = true := by decide

theorem witness_AddWithCarry :
    sourceForm (.adcIndY 0x20) = some (.adc, .mem (.indY 0x20)) ∧
      (∃ m s1, readSource (.mem (.indY 0x20)) idle = .ok m s1) ∧
      sourceForm (.adcDp 0x80) = some (.adc, .mem (.dp 0x80)) ∧
      ∃ e, readSource (.mem (.dp 0x80)) idle = .fault e := ⟨rfl, ⟨_, _, rfl⟩, rfl, _, rfl⟩

theorem witness_SubtractWithCarry :
    sourceForm (.sbcIndX 0x10) = some (.sbc, .mem (.indX 0x10)) ∧
      (∃ m s1, readSource (.mem (.indX 0x10)) idle = .ok m s1) ∧
      sourceForm (.sbcAbs 0xEFFF) = some (.sbc, .mem (.abs 0xEFFF)) ∧
      ∃ e, readSource (.mem (.abs 0xEFFF)) idle = .fault e := ⟨rfl, ⟨_, _, rfl⟩, rfl, _, rfl⟩

theorem witness_LogicalOperations :
    sourceForm (.eorAtX) = some (.eor, .mem .atX) ∧ (∃ m s1, readSource (.mem .atX) idle = .ok m s1) ∧
      sourceForm (.orDp 0xBF) = some (.or, .mem (.dp 0xBF)) ∧ (∃ e, readSource (.mem (.dp 0xBF)) idle = .fault e) ∧
      sourceForm (.andImm 0) = some (.and, .imm 0) := ⟨rfl, ⟨_, _, rfl⟩, rfl, ⟨_, rfl⟩, rfl⟩

theorem witness_Loads :
    sourceForm (.ldxDpY 0x7E) = some (.ldx, .mem (.dpY 0x7E)) ∧
      (∃ m s1, readSource (.mem (.dpY 0x7E)) idle = .ok m s1) ∧
      sourceForm (.ldyDp 0x80) = some (.ldy, .mem (.dp 0x80)) ∧
      ∃ e, readSource (.mem (.dp 0x80)) idle = .fault e := ⟨rfl, ⟨_, _, rfl⟩, rfl, _, rfl⟩

theorem witness_Comparisons :
    sourceForm (.cmpyAbs 0x0030) = some (.cmpy, .mem (.abs 0x0030)) ∧
      SourceOp.compared .cmpy idle = some 0x01 ∧
      (∃ m s1, readSource (.mem (.abs 0x0030)) idle = .ok m s1) ∧
      sourceForm (.cmpxAbs 0x0100) = some (.cmpx, .mem (.abs 0x0100)) ∧ SourceOp.compared .cmpx idle = some 0x10 ∧
      ∃ e, readSource (.mem (.abs 0x0100)) idle = .fault e := ⟨rfl, rfl, ⟨_, _, rfl⟩, rfl, rfl, _, rfl⟩

theorem witness_MemoryTests :
    sourceForm (.tstDp 0x7F) = some (.tst, .mem (.dp 0x7F)) ∧ sourceForm (.bitDp 0x7F) = some (.bit, .mem (.dp 0x7F)) ∧
      (∃ m s1, readSource (.mem (.dp 0x7F)) idle = .ok m s1) ∧ sourceForm (.bitDp 0xC8) = some (.bit, .mem (.dp 0xC8)) ∧
      ∃ e, readSource (.mem (.dp 0xC8)) idle = .fault e := ⟨rfl, rfl, ⟨_, _, rfl⟩, rfl, _, rfl⟩

theorem witness_ShiftsAndRotations :
    (accumulatorForm .rorA = some .ror ∧ ∃ r c, RmwOp.shift .ror idle.a (flag .c idle.psw) = some (r, c)) ∧
      (rmwForm (.aslDp 0x7F) = some (.asl, .dp 0x7F) ∧ effectiveAddress (.dp 0x7F) idle = .ok 0x7F idle ∧
        modifiable idle.device 0x7F = true) ∧
      (rmwForm (.rolDp 0xC1) = some (.rol, .dp 0xC1) ∧ effectiveAddress (.dp 0xC1) idle = .ok 0xC1 idle ∧
        modifiable idle.device 0xC1 = false) ∧
      ∃ e, effectiveAddress (.dp 0x7F) (idle.withPsw 0x20) = .fault e :=
  ⟨⟨rfl, _, _, rfl⟩, ⟨rfl, rfl, rfl⟩, ⟨rfl, rfl, rfl⟩, _, rfl⟩

theorem witness_IncrementDecrementComplement :
    (accumulatorForm .decA = some .dec ∧ RmwOp.count .dec idle.a = some 0x11) ∧
      (rmwForm (.comDp 0x00) = some (.com, .dp 0x00) ∧ effectiveAddress (.dp 0x00) idle = .ok 0x00 idle ∧
        modifiable idle.device 0x00 = true) ∧
      (rmwForm (.incAbs 0xF000) = some (.inc, .abs 0xF000) ∧ effectiveAddress (.abs 0xF000) idle = .ok 0xF000 idle ∧
        modifiable idle.device 0xF000 = false) ∧
      rmwForm (.decDpX 0x05) = some (.dec, .dpX 0x05) ∧
      ∃ e, effectiveAddress (.dpX 0x05) (idle.withPsw 0x20) = .fault e :=
  ⟨⟨rfl, rfl⟩, ⟨rfl, rfl, rfl⟩, ⟨rfl, rfl, rfl⟩, rfl, _, rfl⟩

theorem witness_DecimalAdjust :
    (bcd 0x99 ∧ bcd 0x00) ∧
      (bcd idle.a ∧ ∃ t, exec (.adcImm 0x99) idle = .next t) ∧ ∃ t, exec (.sbcImm 0x99) idle = .next t :=
  ⟨by unfold bcd; decide, ⟨by unfold bcd; decide, _, rfl⟩, _, rfl⟩

theorem witness_Multiply :
    ({ idle with a := 0 } : State).y.toNat * ({ idle with a := 0 } : State).a.toNat = 0 ∧
      256 ≤ ({ idle with y := 0x10, a := 0x10 } : State).y.toNat * ({ idle with y := 0x10, a := 0x10 } : State).a.toNat ∧
      (0 < idle.y.toNat * idle.a.toNat ∧ idle.y.toNat * idle.a.toNat < 256) := by decide

theorem witness_Divide :
    (idle.x ≠ 0 ∧ idle.y.toNat < idle.x.toNat) ∧ ({ idle with x := 0 } : State).x = 0 ∧
      ({ idle with x := 1 } : State).x.toNat ≤ ({ idle with x := 1 } : State).y.toNat := by decide

theorem witness_Stores :
    (storeForm (.staIndY 0x20) = some (.a, .indY 0x20) ∧ effectiveAddress (.indY 0x20) idle = .ok 0x31 idle ∧
      writable idle.device 0x31 = true) ∧
      (storeForm (.ldm 0xEB 0x01) = some (.imm 0x01, .dp 0xEB) ∧ effectiveAddress (.dp 0xEB) idle = .ok 0xEB idle ∧
        writable idle.device 0xEB = false) ∧
      storeForm (.styDp 0x00) = some (.y, .dp 0x00) ∧ ∃ e, effectiveAddress (.dp 0x00) (idle.withPsw 0x20) = .fault e :=
  ⟨⟨rfl, rfl, rfl⟩, ⟨rfl, rfl, rfl⟩, rfl, _, rfl⟩

theorem witness_AutoIncrement :
    flag .g idle.psw = false ∧ (∃ m s1, memRead (zext16 idle.x) idle = .ok m s1) ∧
      writable idle.device (zext16 idle.x) = true ∧
      readable idle.device (zext16 ({ idle with x := 0x80 } : State).x) = false ∧
      writable idle.device (zext16 ({ idle with x := 0xEB } : State).x) = false :=
  ⟨rfl, ⟨_, _, rfl⟩, rfl, rfl, rfl⟩

theorem witness_ExchangeWithMemory :
    (rmwForm .xmaAtX = some (.xma, .atX) ∧ effectiveAddress .atX idle = .ok 0x10 idle ∧
      modifiable idle.device 0x10 = true) ∧
      (rmwForm (.xmaDp 0xED) = some (.xma, .dp 0xED) ∧ effectiveAddress (.dp 0xED) idle = .ok 0xED idle ∧
        modifiable idle.device 0xED = false) ∧
      ∃ e, effectiveAddress .atX (idle.withPsw 0x20) = .fault e :=
  ⟨⟨rfl, rfl, rfl⟩, ⟨rfl, rfl, rfl⟩, _, rfl⟩

theorem witness_WordArithmetic :
    (∃ w s1, readPair 0x20 idle = .ok w s1 ∧ halfAdd .bit11 idle.ya w = halfAdd .bit3 idle.ya w ∧
      halfSub .bit11 idle.ya w = halfSub .bit3 idle.ya w) ∧
      ∃ e, readPair 0x7F idle = .fault e := ⟨⟨_, _, rfl, rfl, rfl⟩, _, rfl⟩

theorem witness_WordCompareLoadStore :
    (∃ w s1, readPair 0x20 idle = .ok w s1) ∧ (∃ e, readPair 0x7F idle = .fault e) ∧
      (flag .g idle.psw = false ∧ writable idle.device (zext16 0x7E) = true ∧
        writable idle.device (zext16 (0x7E + 1)) = true) ∧
      writable idle.device (zext16 (0x7F + 1)) = false := ⟨⟨_, _, rfl⟩, ⟨_, rfl⟩, ⟨rfl, rfl, rfl⟩, rfl⟩

theorem witness_WordCounts :
    (flag .g idle.psw = false ∧ modifiable idle.device (zext16 0x7E) = true ∧
      modifiable idle.device (zext16 (0x7E + 1)) = true) ∧
      modifiable idle.device (zext16 (0x7F + 1)) = false ∧ flag .g (idle.withPsw 0x20).psw = true := by decide

theorem witness_BitsOfMemory :
    (rmwForm (.set1 7 0x7F) = some (.set1 7, .dp 0x7F) ∧ (RmwOp.bitWritten (.set1 7) 0 false).isSome = true ∧
      effectiveAddress (.dp 0x7F) idle = .ok 0x7F idle ∧ modifiable idle.device 0x7F = true) ∧
      (rmwForm (.clr1 0 0xEC) = some (.clr1 0, .dp 0xEC) ∧ effectiveAddress (.dp 0xEC) idle = .ok 0xEC idle ∧
        modifiable idle.device 0xEC = false) ∧
      ∃ e, effectiveAddress (.dp 0x7F) (idle.withPsw 0x20) = .fault e :=
  ⟨⟨rfl, rfl, rfl, rfl⟩, ⟨rfl, rfl, rfl⟩, _, rfl⟩

theorem witness_TestAndModifyBits :
    rmwForm (.tset1Abs 0x7F) = some (.tset1, .abs 0x7F) ∧ modifiable idle.device 0x7F = true ∧
      rmwForm (.tclr1Abs 0x80) = some (.tclr1, .abs 0x80) ∧ modifiable idle.device 0x80 = false := ⟨rfl, rfl, rfl, rfl⟩

/-- Whatever the layout selects can be read, or its read faults. -/
theorem witness_CarryBitOperations (b1 b2 : Byte) :
    carryForm (.eor1b b1 b2) = some (.eor1b, b1, b2) ∧
      ((∃ v s1, memRead (Config.mbitDecode b1 b2).addr idle = .ok v s1) ∨
        ∃ e, memRead (Config.mbitDecode b1 b2).addr idle = .fault e) := by
  refine ⟨rfl, ?_⟩
  cases memRead (Config.mbitDecode b1 b2).addr idle with
  | ok v s => exact .inl ⟨v, s, rfl⟩
  | fault e => exact .inr ⟨e, rfl⟩

theorem witness_FlagBranches :
    branchForm (.bvs 0x80) = some (some (.v, true), 0x80) ∧ branchForm (.bra 0x7F) = some (none, 0x7F) := ⟨rfl, rfl⟩

theorem witness_BitAndCompareBranches :
    ((byteBranchForm (.cbneDpX 0x6F 0xFD)).isSome = true ∧ ∃ m s1, readSource (.mem (.dpX 0x6F)) idle = .ok m s1) ∧
      (byteBranchForm (.bbcDp 7 0x80 0)).isSome = true ∧ ∃ e, readSource (.mem (.dp 0x80)) idle = .fault e :=
  ⟨⟨rfl, _, _, rfl⟩, rfl, _, rfl⟩

theorem witness_DecrementAndBranch :
    (flag .g idle.psw = false ∧ modifiable idle.device (zext16 0x7F) = true) ∧
      flag .g (idle.withPsw 0x20).psw = true ∧ modifiable idle.device (zext16 0x80) = false := by decide

theorem idle_stack : stackInRam 3 idle := by
  intro k hk
  have : k = 0 ∨ k = 1 ∨ k = 2 := by omega
  rcases this with rfl | rfl | rfl <;> (unfold inRam; decide)

theorem stackInRam_fewer {m n : Nat} {s : State} (h : m ≤ n) (hs : stackInRam n s) : stackInRam m s :=
  fun k hk => hs k (by omega)

theorem witness_Calls :
    (callTarget (.tcall 15) idle).isSome = true ∧ callTarget (.pcall 0xFF) idle = some 0xFFFF ∧ pushable 2 idle ∧
      ¬ pushable 2 (idle.withSp 0x00) := by
  refine ⟨rfl, rfl, pushable_of_inRam (stackInRam_fewer (by decide) idle_stack), fun h => ?_⟩
  exact absurd (h 1 (by decide)) (by decide)

theorem witness_Calls_pointer :
    (∃ t u target, pushed [0xF0, 0x00] idle t ∧ readPair 0x20 t = .ok target u) ∧
      ∃ t e, pushed [0xF0, 0x00] idle t ∧ readPair 0x7F t = .fault e :=
  ⟨⟨_, _, _, ⟨_, rfl, _, rfl, rfl⟩, rfl⟩, _, _, ⟨_, rfl, _, rfl, rfl⟩, rfl⟩

theorem witness_CallReachesPointer :
    flag .g idle.psw = false ∧ stackInRam 2 idle ∧ inRam (zext16 0x7E) ∧ inRam (zext16 (0x7E + 1)) :=
  ⟨rfl, stackInRam_fewer (by decide) idle_stack, by unfold inRam; decide, by unfold inRam; decide⟩

theorem witness_Jumps :
    (∃ lo hi, memRead 0x20 idle = .ok lo idle ∧ memRead (0x20 + 1) idle = .ok hi idle) ∧
      readable idle.device 0x80 = false ∧ readable idle.device (0x7F + 1) = false ∧
      (∃ w s1, readPair 0x20 idle = .ok w s1) ∧ ∃ e, readPair 0x7F idle = .fault e :=
  ⟨⟨_, _, rfl, rfl⟩, rfl, rfl, ⟨_, _, rfl⟩, _, rfl⟩

theorem witness_PushesAndPops :
    pushForm .pushPsw idle = some 0x00 ∧ pushable 1 idle ∧ ¬ pushable 1 (idle.withSp 0x80) ∧
      (popForm .popPsw idle.cpu 0).isSome = true ∧
      (∃ v s1, memRead (zext16 ((idle.withSp 0x7E).sp + 1)) (idle.withSp 0x7E) = .ok v s1) ∧
      readable idle.device (zext16 (idle.sp + 1)) = false := by
  refine ⟨rfl, pushable_of_inRam (stackInRam_fewer (by decide) idle_stack), fun h => ?_, rfl, ⟨_, _, rfl⟩, rfl⟩
  exact absurd (h 0 (by decide)) (by decide)

theorem witness_Returns :
    (∃ psw lo hi, memRead (zext16 ((idle.withSp 0x7C).sp + 1)) (idle.withSp 0x7C) = .ok psw (idle.withSp 0x7C) ∧
      memRead (zext16 ((idle.withSp 0x7C).sp + 2)) (idle.withSp 0x7C) = .ok lo (idle.withSp 0x7C) ∧
      memRead (zext16 ((idle.withSp 0x7C).sp + 3)) (idle.withSp 0x7C) = .ok hi (idle.withSp 0x7C)) ∧
      readable idle.device (zext16 (idle.sp + 1)) = false ∧
      readable idle.device (zext16 ((idle.withSp 0x7E).sp + 2)) = false ∧
      readable idle.device (zext16 ((idle.withSp 0x7D).sp + 3)) = false :=
  ⟨⟨_, _, _, rfl, rfl, rfl⟩, rfl, rfl, rfl⟩

theorem witness_CallThenReturn :
    (callTarget (.callAbs 0xF100) idle).isSome = true ∧ stackInRam 2 idle ∧
      ∃ t, exec (.callAbs 0xF100) idle = .next t ∧ t.sp = t.sp ∧
        ∀ k, k < 2 → t.byteAt (stackByte idle k) = t.byteAt (stackByte idle k) :=
  ⟨rfl, stackInRam_fewer (by decide) idle_stack, _, rfl, rfl, fun _ _ => rfl⟩

theorem witness_SoftwareInterrupt : pushable 3 idle ∧ ¬ pushable 3 (idle.withSp 0x01) := by
  refine ⟨pushable_of_inRam idle_stack, fun h => ?_⟩
  exact absurd (h 2 (by decide)) (by decide)

theorem witness_InterruptPriority :
    acceptable asked = some .int0 ∧ flag .i idle.psw = false ∧ stackInRam 3 asked ∧ IntSource.int1 ≠ .int0 :=
  ⟨rfl, rfl, idle_stack, by decide⟩

theorem witness_InterruptAcceptance :
    asked.bootPending = false ∧ asked.power.clockHalted = false ∧ asked.mode = .run ∧ acceptable asked = some .int0 ∧
      cpuMoves asked [] [] ∧ pushable 3 asked ∧ ¬ pushable 3 (asked.withSp 0x01) := by
  refine ⟨rfl, rfl, rfl, rfl, .inr ⟨rfl, rfl, rfl⟩, pushable_of_inRam (s := asked) idle_stack, fun h => ?_⟩
  exact absurd (h 2 (by decide)) (by decide)

theorem witness_AcceptThenReturn :
    acceptable asked = some .int0 ∧ cpuMoves asked [] [] ∧ stackInRam 3 asked ∧
      ∃ t, step asked = .next t ∧ t.sp = t.sp ∧
        ∀ k, k < 3 → t.byteAt (stackByte asked k) = t.byteAt (stackByte asked k) :=
  ⟨rfl, .inr ⟨rfl, rfl, rfl⟩, idle_stack, _, rfl, rfl, fun _ _ => rfl⟩

theorem witness_StoppedCpuChangesNothing :
    ((stoppedIn .rcWdt).mode ≠ .run ∧ (stoppedIn .rcWdt).bootPending = false ∧ (stoppedIn .rcWdt).schedule = [] ∧
      (stoppedIn .rcWdt).clock.wdton = true ∧
      (stoppedIn .rcWdt).clock.wdtcnt + 1 ≠ (stoppedIn .rcWdt).clock.wdtr) ∧
      ((stoppedIn .stop).withSchedule [.env .supplyRecovers]).mode ≠ .run ∧
      (Event.pins 0 0x1F 0 0).disrupts (stoppedIn .stop) = false := by decide

theorem witness_StopAndRelease_enters :
    ∀ src, releasesMode .stop idle.clock.wdton src → src.requested idle.irq = false :=
  fun src _ => by cases src <;> rfl

theorem witness_StopAndRelease_at_once :
    let s := idle.withIrq { idle.irq with irqh := 4, ienh := 4 }
    ∃ src, releasesMode .stop s.clock.wdton src ∧ src.requested s.irq = true ∧ src.enabled s.irq = true :=
  ⟨.int1, ⟨by decide, .inr (.inl rfl)⟩, rfl, rfl⟩

theorem witness_StopAndRelease :
    let s := (stoppedIn .wakeupTimer).withIrq { idle.irq with irqh := 2, ienh := 2 }
    s.mode ≠ .run ∧ s.bootPending = false ∧ s.power.clockHalted = false ∧ cpuMoves s [] [] ∧
      ∃ src, releasesMode s.mode s.clock.wdton src ∧ src.requested s.irq = true ∧ src.enabled s.irq = true :=
  ⟨by decide, rfl, rfl, .inr ⟨rfl, rfl, rfl⟩, .timer0, ⟨by decide, .inr (.inr (.inl ⟨rfl, rfl⟩))⟩, rfl, rfl⟩

theorem witness_StopAndRelease_watchdog :
    let s := ((stoppedIn .rcWdt).withIrq { idle.irq with irql := 2, ienl := 2 }).withClock
      { idle.clock with wdton := false }
    s.mode ≠ .run ∧ cpuMoves s [] [] ∧
      ∃ src, releasesMode s.mode s.clock.wdton src ∧ src.requested s.irq = true ∧ src.enabled s.irq = true :=
  ⟨by decide, .inr ⟨rfl, rfl, rfl⟩, .watchdog, ⟨by decide, .inr (.inr (.inr ⟨rfl, rfl, rfl⟩))⟩, rfl, rfl⟩

/-- Stopped with INT1 requested and enabled, the watchdog counter one below WDTR, WDTON as given. -/
def wakingAt (m : Mode) (resets : Bool) : State :=
  ((stoppedIn m).withIrq { idle.irq with irqh := 4, ienh := 4 }).withClock
    { idle.clock with wdtcnt := 0x7E, wdtr := 0x7F, wdton := resets }

theorem witness_StopAndRelease_match :
    (∀ s ∈ [wakingAt .stop true, wakingAt .rcWdt true, wakingAt .stop false, wakingAt .rcWdt false],
      s.mode ≠ .run ∧ s.mode ≠ .wakeupTimer ∧ s.bootPending = false ∧ s.power.clockHalted = false ∧ s.schedule = [] ∧
        s.clock.wdtcnt + 1 = s.clock.wdtr) ∧
      ∀ m resets, m ≠ .run → releasesMode m (wakingAt m resets).clock.wdton .int1 ∧
        IntSource.int1.requested (wakingAt m resets).irq = true ∧ IntSource.int1.enabled (wakingAt m resets).irq = true :=
  ⟨by decide, fun m resets hm => ⟨⟨hm, .inr (.inl rfl)⟩, by cases m <;> cases resets <;> decide,
    by cases m <;> cases resets <;> decide⟩⟩

theorem witness_StopAndRelease_stays :
    (stoppedIn .stop).mode ≠ .run ∧ cpuMoves (stoppedIn .stop) [] [] ∧
      ∀ src, releasesMode (stoppedIn .stop).mode (stoppedIn .stop).clock.wdton src →
        src.requested (stoppedIn .stop).irq = false :=
  ⟨by decide, .inr ⟨rfl, rfl, rfl⟩, fun src _ => by cases src <;> rfl⟩

theorem witness_StopAndRelease_disabled :
    let s := (stoppedIn .stop).withIrq { idle.irq with irqh := 4 }
    (∃ src, releasesMode s.mode s.clock.wdton src ∧ src.requested s.irq = true) ∧
      ∀ src, releasesMode s.mode s.clock.wdton src → src.requested s.irq = true → src.enabled s.irq = false :=
  ⟨⟨.int1, ⟨by decide, .inr (.inl rfl)⟩, rfl⟩, fun src _ _ => by cases src <;> rfl⟩

theorem witness_ResetEvents :
    (scripted [.env .resetPowerOn]).schedule = [.env .resetPowerOn] ∧
      (scripted [.env (.resetPin [(0x7F, 0)])]).schedule = [.env (.resetPin [(0x7F, 0)])] ∧
      (idle.device.romBase ≤ (0xF000 : Word).toNat) ∧ inRam 0x7E ∧
      ∀ c ∈ [((0x7F : BitVec 7), (0 : Byte))], c.1.toNat ≠ (0x7E : Word).toNat :=
  ⟨rfl, rfl, by decide, by unfold inRam; decide, by simp⟩

/-- STA 30H is next. -/
def storing : State := machine [0xE5, 0x30] [] ⟨0x12, 0x00, 0x00, 0x7F, 0x00, 0xF000⟩

theorem witness_ResetEvents_torn :
    let s := storing.withSchedule [.env (.resetPin [(0x30, 0xAB)])]
    (∃ t, step s = .next t) ∧ inRam 0x31 ∧ 0x31 ∉ interruptedWrites s ∧ 0x30 ∈ interruptedWrites s ∧
      (stoppedIn .stop).mode ≠ .run :=
  ⟨⟨_, rfl⟩, by unfold inRam; decide, by decide, by decide, by decide⟩

theorem witness_ResetEvents_whole :
    runsInstruction storing ∧ cpuMoves storing [] [] ∧ (∃ t, step storing = .next t) ∧
      (0x31 : Word) ∉ interruptedWrites storing :=
  ⟨⟨rfl, rfl, rfl, rfl⟩, .inr ⟨rfl, rfl, rfl⟩, ⟨_, rfl⟩, by decide⟩

/-- A reset may leave open the byte the interrupted instruction writes, and no other (spec/70_reset_and_hazards.md R557). -/
theorem test_reset_torn_byte :
    let t := performReset .pin (admittedTorn storing [(0x30, 0xAB), (0x31, 0xCD)]) storing
    t.ramByte 0x30 = 0xAB ∧ t.ramByte 0x31 = storing.ramByte 0x31 := ⟨by decide, rfl⟩

/-- In STOP mode no instruction is cut short (spec/70_reset_and_hazards.md R557). -/
theorem test_reset_stopped_keeps : admittedTorn (storing.withMode .stop) [(0x30, 0xAB)] = [] := by decide

/-- A clock of the basic interval timer is next; BITR, the watchdog counter and WDTON as given, WDTR at 7FH. -/
def ticking (bitr : Byte) (count : BitVec 7) (resets : Bool) : State :=
  (scripted [.env (.bitClock [])]).withClock
    { idle.clock with bitr := bitr, wdtcnt := count, wdtr := 0x7F, wdton := resets }

theorem witness_WatchdogAndIntervalTimer :
    (∀ s ∈ [ticking 0xFE 0x7E true, ticking 0xFF 0x7D true, ticking 0xFF 0x7E false, ticking 0xFF 0x7E true],
      s.schedule = [.env (.bitClock [])] ∧ s.mode = .run ∧ s.power.clockHalted = false) ∧
      (ticking 0xFE 0x7E true).clock.bitr ≠ 0xFF ∧
      ((ticking 0xFF 0x7D true).clock.bitr = 0xFF ∧
        (ticking 0xFF 0x7D true).clock.wdtcnt + 1 ≠ (ticking 0xFF 0x7D true).clock.wdtr) ∧
      ((ticking 0xFF 0x7E false).clock.wdtcnt + 1 = (ticking 0xFF 0x7E false).clock.wdtr ∧
        (ticking 0xFF 0x7E false).clock.wdton = false) ∧
      ((ticking 0xFF 0x7E true).clock.wdtcnt + 1 = (ticking 0xFF 0x7E true).clock.wdtr ∧
        (ticking 0xFF 0x7E true).clock.wdton = true) := by
  decide

/-- The match of the watchdog is next; WDTR, the watchdog counter and WDTON as given. -/
def matching (wdtr count : BitVec 7) (wrapped resets : Bool) : State :=
  (scripted [.env (.watchdogMatch [])]).withClock
    { idle.clock with wdtr := wdtr, wdtcnt := count, wdtWrapped := wrapped, wdton := resets }

theorem witness_WatchdogAndIntervalTimer_match :
    (∀ s ∈ [matching 0x7F 0x7E false true, matching 0 0 false true, matching 0x05 0x05 false false,
        matching 0x05 0x00 true false, matching 0x01 0x01 false true, matching 0x00 0x7F false true],
      s.schedule = [.env (.watchdogMatch [])] ∧ s.mode = .run ∧ s.power.clockHalted = false) ∧
      (∀ s ∈ [matching 0x7F 0x7E false true, matching 0 0 false true],
        ¬ (s.clock.wdtWrapped = true ∨ (0 < s.clock.wdtcnt.toNat ∧ s.clock.wdtr.toNat ≤ s.clock.wdtcnt.toNat))) ∧
      (∀ s ∈ [matching 0x05 0x05 false false, matching 0x05 0x00 true false, matching 0x01 0x01 false true,
          matching 0x00 0x7F false true],
        s.clock.wdtWrapped = true ∨ (0 < s.clock.wdtcnt.toNat ∧ s.clock.wdtr.toNat ≤ s.clock.wdtcnt.toNat)) ∧
      (∀ s ∈ [matching 0x05 0x05 false false, matching 0x01 0x01 false true],
        s.clock.wdtcnt = s.clock.wdtr ∧ s.clock.wdtcnt ≠ 0) := by
  decide

/-- LDM 0EDH,#05H with the watchdog counter at 5 and WDTON = 0: the match comes with the write and the counter restarts
(spec/60_exceptions.md R442). -/
theorem test_wdtr_write_matches :
    (match step ((machine [0xE4, 0x05, 0xED] [] ⟨0, 0, 0, 0x7F, 0, 0xF000⟩).withClock
        { State.reset.clock with wdton := false, wdtcnt := 5 }) with
      | .next t => some (t.clock.wdtr, t.clock.wdtcnt, IntSource.watchdog.requested t.irq)
      | _ => none) = some (5, 0, true) := by decide

/-- LDM 0EDH,#80H clears the counter and sets WDTR to 0: no overflow has been counted, so nothing matches
(spec/60_exceptions.md R442). -/
theorem test_wdtr_clear_does_not_match :
    (match step ((machine [0xE4, 0x80, 0xED] [] ⟨0, 0, 0, 0x7F, 0, 0xF000⟩).withClock
        { State.reset.clock with wdton := false, wdtcnt := 5 }) with
      | .next t => some (t.clock.wdtr, t.clock.wdtcnt, IntSource.watchdog.requested t.irq)
      | _ => none) = some (0, 0, false) := by decide

/-- A tick of timer 0 or 1 is next; both are started from internal clocks, TM1 as given. -/
def counting (e : Event) (tm1 : Byte) : State :=
  (scripted [.env e]).withTimers { idle.timers with tm0 := 0x03, tm1 := tm1 }

theorem witness_TimerTicks :
    (∀ s ∈ [counting .t0Clock 0x03, counting .t0Clock 0x4F, counting .t1Clock 0x03],
      s.mode = .run ∧ s.power.clockHalted = false ∧ s.timers.t0ck ≠ 7 ∧ s.timers.t0cn = true ∧ s.timers.t0st = true ∧
        s.timers.t1cn = true ∧ s.timers.t1st = true) ∧
      ((counting .t0Clock 0x03).schedule = [.env .t0Clock] ∧ (counting .t0Clock 0x03).timers.bit16 = false) ∧
      ((counting .t0Clock 0x4F).schedule = [.env .t0Clock] ∧ (counting .t0Clock 0x4F).timers.bit16 = true ∧
        (counting .t0Clock 0x4F).timers.t1ck = 3) ∧
      (counting .t1Clock 0x03).schedule = [.env .t1Clock] ∧ (counting .t1Clock 0x03).timers.bit16 = false ∧
        (counting .t1Clock 0x03).timers.pwm0e = false := by decide

/-- Timer 0 is started with the clock source `t0ck`, TM1 as given. -/
def clockedBy (t0ck : BitVec 3) (turn : Turn) (tm1 : Byte) : State :=
  (scripted [turn]).withTimers { idle.timers with tm0 := 0#1 ++ (t0ck ++ 0x3#2), tm1 := tm1 }

/-- Pin RA0 rises. -/
def ec0Rises : Turn := .env (.pins 0x01 idle.ports.pinB idle.ports.pinC idle.ports.pinD)

theorem witness_TimerTicks_modes :
    let wakes := (clockedBy 6 (.env .t0Clock) 0x00).withMode .wakeupTimer
    let rests := (clockedBy 5 (.env .t0Clock) 0x00).withMode .wakeupTimer
    let beside := clockedBy 7 (.env .t1Clock) 0x0B
    (wakes.mode = .wakeupTimer ∧ wakes.timers.t0ck = 6 ∧ wakes.timers.t0cn = true ∧ wakes.timers.t0st = true ∧
      wakes.timers.bit16 = false) ∧
      (rests.mode ≠ .run ∧ ¬ (rests.mode = .wakeupTimer ∧ rests.timers.t0ck = 6) ∧ rests.timers.t0cn = true ∧
        rests.timers.t0st = true) ∧
      beside.mode = .run ∧ beside.timers.t1cn = true ∧ beside.timers.t1st = true ∧ beside.timers.bit16 = false ∧
        beside.timers.pwm0e = false ∧ beside.timers.t0ck = 7 ∧
        ¬ (beside.timers.t1ck = 3 ∧ beside.timers.t0ck = 7) := by decide

theorem witness_TimerTicks_ec0 :
    (∀ s ∈ [clockedBy 7 ec0Rises 0x00, clockedBy 7 ec0Rises 0x0F, clockedBy 7 ec0Rises 0x4F],
      s.schedule = [ec0Rises] ∧ s.mode = .run ∧ s.timers.t0ck = 7 ∧ s.ports.raio.getLsbD 0 = false ∧
        s.ports.pinA.getLsbD 0 = false ∧ (0x01 : Byte).getLsbD 0 = true ∧
        idle.ports.pinB.getLsbD 2 = s.irq.int0Seen ∧ idle.ports.pinB.getLsbD 3 = s.irq.int1Seen ∧
        s.timers.t0cn = true ∧ s.timers.t0st = true) ∧
      ((clockedBy 7 ec0Rises 0x00).timers.bit16 = false ∧ (clockedBy 7 ec0Rises 0x00).timers.t1ck ≠ 3) ∧
      ((clockedBy 7 ec0Rises 0x0F).timers.bit16 = false ∧ (clockedBy 7 ec0Rises 0x0F).timers.t1ck = 3 ∧
        (clockedBy 7 ec0Rises 0x0F).timers.t1cn = true ∧ (clockedBy 7 ec0Rises 0x0F).timers.t1st = true ∧
        (clockedBy 7 ec0Rises 0x0F).timers.pwm0e = false) ∧
      (clockedBy 7 ec0Rises 0x4F).timers.bit16 = true ∧ (clockedBy 7 ec0Rises 0x4F).timers.t1ck = 3 := by decide

/-- A rising edge of EC0 counts timer 0 (spec/61_peripherals.md R489). -/
theorem test_ec0_counts :
    (ec0Edge (clockedBy 7 ec0Rises 0x00)).timers.t0 = 1 ∧ ec0Enabled (clockedBy 7 ec0Rises 0x00) = true := by decide

/-- Both external interrupts rise on port B, TM0 and TM1 as given, both timers started. -/
def capturing (tm0 : BitVec 6) (tm1 : Byte) : State :=
  ((scripted [.env (.pins idle.ports.pinA 0x0C idle.ports.pinC idle.ports.pinD)]).withPorts
    { idle.ports with rbfunc := 0x0C }).withTimers { idle.timers with tm0 := tm0, tm1 := tm1, t1 := 0x34 }

theorem witness_Captures :
    (∀ s ∈ [capturing 0x23 0x13, capturing 0x23 0x00, capturing 0x00 0x13, capturing 0x23 0x4C, capturing 0x23 0x5F,
        capturing 0x03 0x5F, capturing 0x23 0x53],
      s.schedule = [.env (.pins s.ports.pinA 0x0C s.ports.pinC s.ports.pinD)] ∧ s.mode = .run ∧
        s.power.clockHalted = false ∧ s.timers.t0cn = s.timers.t0st ∧ s.timers.t1cn = s.timers.t1st) ∧
      (∀ s ∈ [capturing 0x23 0x13, capturing 0x23 0x00, capturing 0x00 0x13], s.timers.bit16 = false) ∧
      (∀ s ∈ [capturing 0x23 0x4C, capturing 0x23 0x5F, capturing 0x03 0x5F],
        s.timers.bit16 = true ∧ s.timers.t1ck = 3) ∧
      (capturing 0x23 0x53).timers.bit16 = true ∧ (capturing 0x23 0x53).timers.t1ck ≠ 3 := by decide

/-- INT0 captures both bytes of the pair by the run bits of TM0 alone (spec/61_peripherals.md R487, R490). -/
theorem test_capture0_16bit :
    ((int0Edge (capturing 0x23 0x4C)).timers.cdr1, (int0Edge (capturing 0x23 0x4C)).timers.t1) = (0x34, 0x00) := by decide

/-- `Capture1` needs no 16BIT = 0 (spec/61_peripherals.md R482, R531). -/
theorem test_capture1_16bit :
    ((int1Edge (capturing 0x03 0x5F)).timers.cdr1, (int1Edge (capturing 0x03 0x5F)).timers.t1) = (0x34, 0x00) := by decide

/-- The overflow of a wake-up is counted by the watchdog (spec/60_exceptions.md R438, R442). -/
theorem test_wake_counts :
    (wake (wakingAt .stop false)).clock.wdtcnt = 0 ∧
      IntSource.watchdog.requested (wake (wakingAt .stop false)).irq = true := by
  rcases wake_counts (s := wakingAt .stop false) (.inl rfl) with h | h <;> rw [h] <;> decide

theorem witness_PwmTicks :
    let s := counting .t1Clock 0x23
    let full := s.withTimers { s.timers with pwm0hr := 0xF, pwmCnt := 0x3FF }
    (∀ u ∈ [s, full], u.schedule = [.env .t1Clock] ∧ u.mode = .run ∧ u.power.clockHalted = false ∧
      u.timers.t1cn = true ∧ u.timers.t1st = true ∧ u.timers.bit16 = false ∧ u.timers.pwm0e = true ∧
      ¬ (u.timers.t1ck = 3 ∧ u.timers.t0ck = 7)) ∧
      full.timers.pwmCnt.toNat = full.timers.pwm0hr.toNat / 4 * 256 + full.timers.tdr1.toNat := by decide

theorem witness_AdConversion :
    let s := (scripted [.env (.adcDone 0x5A)]).withAdc (writeAdcm 0x3E idle.adc)
    let off := s.withAdc { s.adc with aden := false }
    s.schedule = [.env (.adcDone 0x5A)] ∧ s.mode = .run ∧ s.power.clockHalted = false ∧ s.adc.busy = true ∧
      s.adc.aden = true ∧ off.adc.busy = true ∧ off.adc.aden = false ∧
      ((0x3E : Byte).getLsbD 1 = true ∧ (0x3E : Byte).getLsbD 5 = true) ∧
      ((0x3C : Byte).getLsbD 1 = false ∧ (0x3C : Byte).getLsbD 5 = true) ∧
      ((0x1E : Byte).getLsbD 1 = true ∧ (0x1E : Byte).getLsbD 5 = false) ∧
      (0x1C : Byte).getLsbD 1 = false ∧ (0x1C : Byte).getLsbD 5 = false := by decide

theorem witness_ControlRegistersReadBack :
    ((0xE2 : Word), (0xF0 : Byte)) ∈ [((0xE2 : Word), (0xF0 : Byte)), (0xEF, 0x0E)] ∧
      (0x17 : Byte).getLsbD 1 = true ∧ (0x17 : Byte).getLsbD 0 = true ∧ idle.timers.t0cn = false ∧
      idle.timers.t0st = false ∧ idle.timers.t1cn = false ∧ idle.timers.t1st = false := by decide

/-- The plain pins at the ends of each port's range, and both ways a pin can stand there. -/
theorem witness_PortReadsAndWrites :
    let s := idle.withPorts { idle.ports with raio := 0x80, rafunc := 0x02, latchA := 0x80 }
    ((7 < 8 ∧ s.ports.rafunc.getLsbD 7 = false) ∧ s.ports.raio.getLsbD 7 = true ∧
      s.options.openDrainA.getLsbD 7 = false) ∧
      s.ports.raio.getLsbD 0 = false ∧
      (s.device.package = .p24 ∧ s.ports.rbfunc.getLsbD 4 = false ∧ s.ports.rafunc.getLsbD 0 = false) := by decide

/-- An open-drain output that holds 1 shows the environment's level and is not driven (spec/61_peripherals.md R470). -/
theorem test_open_drain :
    let s := { idle with
      options := { idle.options with openDrainA := 1 }, ports := { idle.ports with raio := 3, latchA := 3 } }
    ((readSfr .ra s).1, driveRA s 0, driveRA s 1) = (0x02, .floating, .level true) := by decide

theorem witness_RequestLostByReadModifyWrite : flag .g idle.psw = false := rfl

end Sys2Proof.Tests
end

section
/-! What the obligations about the state need of the model's operations: which bytes they list in memory, and what the
data accesses of an instruction leave alone. -/

namespace Sys2Proof.Machine

/-! ## The invariant under the operations on memory -/

/-- A write of a byte that satisfies a condition keeps the condition on all listed bytes. -/
theorem Memory.all_write {p : Host.Cell → Bool} {m : Memory} {k : Nat} {v : Byte} (hk : p (k, v) = true)
    (hm : m.all p = true) : (Memory.write m k v).all p = true := by
  induction m with
  | nil => simp [Memory.write, hk]
  | cons c rest ih =>
    obtain ⟨a, w⟩ := c
    simp only [List.all_cons, Bool.and_eq_true] at hm
    obtain ⟨hc, hrest⟩ := hm
    simp only [Memory.write]
    split
    · simp [hk, hc, hrest]
    · split
      · simp [hk, hrest]
      · simp [hc, ih hrest]

/-- Forgetting the low addresses lists no new byte. -/
theorem Memory.all_dropBelow {p : Host.Cell → Bool} {m : Memory} (k : Nat) (hm : m.all p = true) :
    (Memory.dropBelow m k).all p = true := by
  induction m with
  | nil => rfl
  | cons c rest ih =>
    obtain ⟨a, v⟩ := c
    simp only [Memory.dropBelow]
    split
    · simp only [List.all_cons, Bool.and_eq_true] at hm
      exact ih hm.2
    · exact hm

/-- The torn bytes of a reset are bytes below 80H. -/
theorem writeTorn_all {p : Host.Cell → Bool} (hp : ∀ (k : Nat) (v : Byte), k < 0x80 → p (k, v) = true) (torn : Torn)
    {m : Memory} (hm : m.all p = true) : (writeTorn torn m).all p = true := by
  induction torn generalizing m with
  | nil => exact hm
  | cons c rest ih => exact ih (Memory.all_write (hp _ _ c.1.isLt) hm)

/-- A listed byte lies in RAM or in the program memory of the device. -/
def Device.mapped (d : Device) (c : Host.Cell) : Bool := decide (c.1 < 0x80) || decide (d.romBase ≤ c.1)

theorem State.memoryMapped_eq (s : State) : s.memoryMapped = s.mem.all s.device.mapped := rfl

theorem Device.mapped_ram (d : Device) {k : Nat} (v : Byte) (h : k < 0x80) : d.mapped (k, v) = true := by
  simp [Device.mapped, h]

/-- The invariant speaks of memory and device only. -/
theorem State.invariant_congr {s t : State} (hm : t.mem = s.mem) (hd : t.device = s.device) (h : s.invariant) :
    t.invariant := by
  unfold State.invariant at *
  rwa [State.memoryMapped_eq, hm, hd]

/-- A write to RAM keeps the invariant. -/
theorem State.invariant_withMem_write {s : State} {a : Word} (v : Byte) (ha : inRam a) (h : s.invariant) :
    (s.withMem (Memory.write s.mem a.toNat v)).invariant :=
  ⟨Memory.wf_write v a.isLt h.1, Memory.all_write (s.device.mapped_ram v ha) h.2⟩

/-- A reset keeps the condition on the listed bytes. -/
theorem resetMemory_all {p : Host.Cell → Bool} (hp : ∀ (k : Nat) (v : Byte), k < 0x80 → p (k, v) = true)
    (cause : ResetCause) (torn : Torn) {m : Memory} (hm : m.all p = true) :
    (resetMemory cause torn m).all p = true := by
  cases cause with
  | powerOn => exact Memory.all_dropBelow _ hm
  | pin | watchdog | powerFail => exact writeTorn_all hp torn hm

/-- A reset from any cause keeps the invariant. -/
theorem performReset_invariant (cause : ResetCause) (torn : Torn) {s : State} (h : s.invariant) :
    (performReset cause torn s).invariant :=
  ⟨resetMemory_wf cause torn s.mem h.1,
    resetMemory_all (fun _ v hk => s.device.mapped_ram v hk) cause torn h.2⟩

/-- A memory write that answers keeps the invariant: it lists a RAM byte or nothing new. -/
theorem memWrite_invariant {a : Word} {v : Byte} {s t : State} {u : Unit} (h : memWrite a v s = .ok u t)
    (hs : s.invariant) : t.invariant := by
  unfold memWrite at h
  split at h
  case h_1 hr =>
    cases h
    exact State.invariant_withMem_write v (regionOf_ram.mp hr) hs
  case h_4 r _ _ =>
    cases h
    obtain ⟨-, hmem, -, -, hset⟩ := writeSfr_kept r v s
    exact State.invariant_congr hmem hset.1 hs
  all_goals cases h

/-! ## What the data accesses of an instruction leave alone -/

theorem settingKept_refl (s : State) : settingKept s s := ⟨rfl, rfl, rfl, rfl, rfl, rfl⟩

theorem settingKept_trans {s t u : State} (h : settingKept s t) (h' : settingKept t u) : settingKept s u := by
  obtain ⟨a1, a2, a3, a4, a5, a6⟩ := h
  obtain ⟨b1, b2, b3, b4, b5, b6⟩ := h'
  exact ⟨b1.trans a1, b2.trans a2, b3.trans a3, b4.trans a4, b5.trans a5, b6.trans a6⟩

/-- The reads and writes of an instruction leave the run mode and the setting alone and keep the invariant. -/
structure AccessFrame (s t : State) : Prop where
  mode : t.mode = s.mode
  setting : settingKept s t
  invariant : s.invariant → t.invariant

theorem AccessFrame.trans {s t u : State} (h : AccessFrame s t) (h' : AccessFrame t u) : AccessFrame s u :=
  ⟨h'.mode.trans h.mode, settingKept_trans h.setting h'.setting, h'.invariant ∘ h.invariant⟩

/-- CPU registers and free values are outside the frame. -/
theorem AccessFrame.of_withCpu (s : State) (c : Cpu) (k : Nat) : AccessFrame s ((s.withCpu c).spend k) :=
  ⟨rfl, settingKept_refl s, State.invariant_congr rfl rfl⟩

theorem onlyCpu.accessFrame {c : Cpu} {s t : State} (h : onlyCpu c s t) : AccessFrame s t := by
  obtain ⟨⟨k, rfl⟩, -⟩ := h
  exact .of_withCpu s c k

theorem quiet.accessFrame {s t : State} (h : quiet s t) : AccessFrame s t := by
  obtain ⟨-, hmem, hmode, hset⟩ := h
  exact ⟨hmode, hset, State.invariant_congr hmem hset.1⟩

theorem memWrite_access {a : Word} {v : Byte} {s t : State} {u : Unit} (h : memWrite a v s = .ok u t) :
    t.cpu = s.cpu ∧ AccessFrame s t := by
  obtain ⟨-, hcpu, hmode, -, hset, -⟩ := memWrite_ok h
  exact ⟨hcpu, hmode, hset, memWrite_invariant h⟩

/-- A read-modify-write of a byte: a read, the events inside the instruction, and a write. -/
theorem rmwByte_access {a : Word} {f : Byte → Byte} {s t : State} {v : Byte} (h : rmwByte a f s = .ok v t) :
    t.cpu = s.cpu ∧ AccessFrame s t := by
  obtain ⟨_, s0, h0, b0⟩ := Res.bind_eq_ok.mp h
  obtain rfl := rmwCheck_ok h0
  obtain ⟨w, s1, h1, b1⟩ := Res.bind_eq_ok.mp b0
  obtain ⟨-, k, rfl⟩ := memRead_ok h1
  obtain ⟨_, s2, h2, b2⟩ := Res.bind_eq_ok.mp b1
  cases b2
  have hq := quiet_betweenReadAndWrite (s0.spend k)
  obtain ⟨hcpu, hframe⟩ := memWrite_access h2
  exact ⟨hcpu.trans hq.1, ((AccessFrame.of_withCpu s0 s0.cpu k).trans hq.accessFrame).trans hframe⟩

/-- An operation at the effective address of an operand: the address is formed from reads. -/
theorem at_operand_access {α : Type} {o : Operand} {g : Word → State → Res α} {s t : State} {v : α}
    (hg : ∀ ea s1 s2, g ea s1 = .ok v s2 → s2.cpu = s1.cpu ∧ AccessFrame s1 s2)
    (h : (effectiveAddress o s).bind g = .ok v t) : t.cpu = s.cpu ∧ AccessFrame s t := by
  obtain ⟨ea, s1, h1, h2⟩ := Res.bind_eq_ok.mp h
  obtain ⟨k, rfl⟩ := effectiveAddress_ok h1
  obtain ⟨hcpu, hframe⟩ := hg ea _ t h2
  exact ⟨hcpu, (AccessFrame.of_withCpu s s.cpu k).trans hframe⟩

theorem writePair_access {d : Byte} {w : Word} {s t : State} {u : Unit} (h : writePair d w s = .ok u t) :
    t.cpu = s.cpu ∧ AccessFrame s t := by
  obtain ⟨lo, s0, h0, b0⟩ := Res.bind_eq_ok.mp h
  obtain ⟨-, rfl, rfl⟩ := directPage_ok h0
  obtain ⟨_, s1, h1, b1⟩ := Res.bind_eq_ok.mp b0
  obtain ⟨hi, s2, h2, h3⟩ := Res.bind_eq_ok.mp b1
  obtain ⟨-, rfl, rfl⟩ := directPage_ok h2
  obtain ⟨hcpu1, hframe1⟩ := memWrite_access h1
  obtain ⟨hcpu2, hframe2⟩ := memWrite_access h3
  exact ⟨hcpu2.trans hcpu1, hframe1.trans hframe2⟩

/-- A read-modify-write of a pair: two checks, two reads, the events inside the instruction, and two writes. -/
theorem modifyPair_access {f : Word → Word} {d : Byte} {s t : State} (h : modifyPair f d s = .next t) :
    ∃ w s1, t = s1.withPsw (setNZ16 (f w) s.psw) ∧ s1.cpu = s.cpu ∧ AccessFrame s s1 := by
  obtain ⟨w, s6, h6, rfl⟩ := Res.done_eq_next.mp h
  obtain ⟨lo, s0, h0, b0⟩ := Res.bind_eq_ok.mp h6
  obtain ⟨-, rfl, rfl⟩ := directPage_ok h0
  obtain ⟨_, s1, h1, b1⟩ := Res.bind_eq_ok.mp b0
  obtain rfl := rmwCheck_ok h1
  obtain ⟨hi, s2, h2, b2⟩ := Res.bind_eq_ok.mp b1
  obtain ⟨-, rfl, rfl⟩ := directPage_ok h2
  obtain ⟨_, s3, h3, b3⟩ := Res.bind_eq_ok.mp b2
  obtain rfl := rmwCheck_ok h3
  obtain ⟨v, s4, h4, b4⟩ := Res.bind_eq_ok.mp b3
  obtain ⟨k, rfl⟩ := readPair_ok h4
  obtain ⟨_, s5, h5, b5⟩ := Res.bind_eq_ok.mp b4
  cases b5
  have hq := quiet_betweenReadAndWrite (s3.spend k)
  obtain ⟨hcpu, hframe⟩ := writePair_access h5
  exact ⟨w, _, rfl, hcpu.trans hq.1, ((AccessFrame.of_withCpu s3 s3.cpu k).trans hq.accessFrame).trans hframe⟩

/-! ## Pushes and pops -/

/-- Pushes move SP and no other CPU register. -/
theorem pushAll_access : ∀ {bytes : List Byte} {s t : State} {u : Unit}, pushAll bytes s = .ok u t →
    t.cpu = { s.cpu with sp := t.sp } ∧ AccessFrame s t
  | [], s, t, u, h => by
    cases h
    exact ⟨rfl, .of_withCpu s s.cpu 0⟩
  | v :: rest, s, t, u, h => by
    obtain ⟨_, s1, h1, h2⟩ := Res.bind_eq_ok.mp h
    obtain ⟨s2, h3, rfl⟩ := push8_ok h1
    obtain ⟨hcpu, hframe⟩ := memWrite_access h3
    obtain ⟨hcpu', hframe'⟩ := pushAll_access h2
    have hsp := AccessFrame.of_withCpu s2 { s2.cpu with sp := s.sp - 1 } 0
    refine ⟨?_, (hframe.trans hsp).trans hframe'⟩
    rw [hcpu', ← hcpu]
    rfl

theorem push8_eq (v : Byte) (s : State) : push8 v s = pushAll [v] s := by
  simp only [pushAll]
  cases push8 v s <;> rfl

theorem pushPc_access {s t : State} {u : Unit} (h : pushPc s = .ok u t) :
    t.cpu = { s.cpu with sp := t.sp } ∧ AccessFrame s t := pushAll_access (pushPc_eq s ▸ h)

/-- Taking an exception changes SP by its pushes, PSW to the given byte, and PC. -/
theorem takeException_access {image live : Byte} {vector : Word} {s t : State} {u : Unit}
    (h : takeException image live vector s = .ok u t) :
    t.cpu = { s.cpu with sp := t.sp, psw := live, pc := t.pc } ∧ AccessFrame s t := by
  rw [takeException_eq] at h
  obtain ⟨_, s1, h1, h2⟩ := Res.bind_eq_ok.mp h
  obtain ⟨hcpu, hframe⟩ := pushAll_access h1
  cases h2
  exact ⟨congrArg (fun c : Cpu => { c with psw := live, pc := s1.vectorAt vector }) hcpu,
    hframe.trans (.of_withCpu s1 { s1.cpu with psw := live, pc := s1.vectorAt vector } 0)⟩

/-- Popping a word moves SP up by two; free values may be used. -/
theorem popWord_spend {s t : State} {w : Word} (h : popWord s = .ok w t) :
    ∃ k, t = (s.withSp (s.sp + 1 + 1)).spend k := by
  obtain ⟨lo, s1, h1, b1⟩ := Res.bind_eq_ok.mp h
  obtain ⟨hi, s2, h2, b2⟩ := Res.bind_eq_ok.mp b1
  cases b2
  obtain ⟨j, rfl⟩ := pop8_spend h1
  obtain ⟨k, rfl⟩ := pop8_spend h2
  exact ⟨j + k, State.spend_spend (s.withSp (s.sp + 1 + 1)) j k⟩

end Sys2Proof.Machine
end

section
/-! What an instruction that answers can do, said once for all instructions: the registers and flags it leaves alone,
and whether it touches more than CPU registers. -/

namespace Sys2Proof.Machine

/-! ## Flags a computation leaves alone -/

section Flags

variable {l : List Flag} {p q : Byte}

theorem flagsKept_refl (l : List Flag) (p : Byte) : flagsKept l p p := fun _ _ => rfl

theorem flagsKept_setFlag {f : Flag} {v : Bool} (hf : f ∈ l) (h : flagsKept l p q) : flagsKept l p (setFlag f v q) := by
  intro other hother
  have hne : other ≠ f := fun e => hother (e ▸ hf)
  rw [flag_setFlag, if_neg hne, h other hother]

theorem flagsKept_setNZ8 {r : Byte} (hn : .n ∈ l) (hz : .z ∈ l) (h : flagsKept l p q) : flagsKept l p (setNZ8 r q) :=
  flagsKept_setFlag hz (flagsKept_setFlag hn h)

theorem flagsKept_setNZ16 {r : Word} (hn : .n ∈ l) (hz : .z ∈ l) (h : flagsKept l p q) :
    flagsKept l p (setNZ16 r q) := flagsKept_setFlag hz (flagsKept_setFlag hn h)

/-- N and Z of a byte. -/
theorem flagsKept_nz (r p : Byte) : flagsKept [.n, .z] p (setNZ8 r p) :=
  flagsKept_setNZ8 (by decide) (by decide) (flagsKept_refl _ _)

/-- N and Z of a word. -/
theorem flagsKept_nz16 (r : Word) (p : Byte) : flagsKept [.n, .z] p (setNZ16 r p) :=
  flagsKept_setNZ16 (by decide) (by decide) (flagsKept_refl _ _)

/-- N and Z of a byte, and a carry. -/
theorem flagsKept_nzc (r : Byte) (c : Bool) (p : Byte) : flagsKept [.n, .z, .c] p (setNZ8 r (setFlag .c c p)) :=
  flagsKept_setNZ8 (by decide) (by decide) (flagsKept_setFlag (by decide) (flagsKept_refl _ _))

theorem flagsKept_writeSum8 (x : Sum 8) (p : Byte) : flagsKept [.n, .v, .h, .z, .c] p (writeSum8 x p) :=
  flagsKept_setNZ8 (by decide) (by decide) <| flagsKept_setFlag (by decide) <| flagsKept_setFlag (by decide) <|
    flagsKept_setFlag (by decide) (flagsKept_refl _ _)

theorem flagsKept_writeSum16 (r : Word) (c h v : Bool) (p : Byte) :
    flagsKept [.n, .v, .h, .z, .c] p (writeSum16 r c h v p) :=
  flagsKept_setNZ16 (by decide) (by decide) <| flagsKept_setFlag (by decide) <| flagsKept_setFlag (by decide) <|
    flagsKept_setFlag (by decide) (flagsKept_refl _ _)

theorem flagsKept_compare16 (a m : Word) (p : Byte) : flagsKept [.n, .z, .c] p (compare16 a m p) :=
  flagsKept_setNZ16 (by decide) (by decide) (flagsKept_setFlag (by decide) (flagsKept_refl _ _))

theorem flagsKept_bitTest (a m p : Byte) : flagsKept [.n, .v, .z] p (bitTest a m p) :=
  flagsKept_setFlag (by decide) <| flagsKept_setFlag (by decide) <| flagsKept_setFlag (by decide) (flagsKept_refl _ _)

/-- Only the flagged transfer has N and Z in its FLAG column (log entry 37). -/
theorem flagsKept_transferFlags (t : FlaggedTransfer) (v p : Byte) :
    flagsKept (if flaggedTransfer = t then [.n, .z] else []) p (transferFlags t v p) := by
  unfold transferFlags
  split
  · exact flagsKept_nz v p
  · exact flagsKept_refl _ _

/-- The FLAG column of an instruction that loads the whole PSW. -/
theorem flagsKept_all (p q : Byte) : flagsKept [.n, .v, .g, .b, .h, .i, .z, .c] p q := fun f hf =>
  absurd (by cases f <;> decide) hf

end Flags

/-! ## Registers an instruction leaves alone -/

/-- The registers and flags an instruction is no writer of are as they were. -/
structure RegistersKept (i : Instr) (old new : Cpu) : Prop where
  a : writesA i = false → new.a = old.a := by exact fun _ => rfl
  x : writesX i = false → new.x = old.x := by exact fun _ => rfl
  y : writesY i = false → new.y = old.y := by exact fun _ => rfl
  sp : writesSp i = false → new.sp = old.sp := by exact fun _ => rfl
  pc : loadsPc i = false → new.pc = old.pc := by exact fun _ => rfl
  flags : flagsKept (flagColumn i) old.psw new.psw := by exact flagsKept_refl _ _

/-- What an instruction that answers may have done beside CPU registers: used free values; or accessed memory, as a
writer of memory; or changed the run mode, as STOP. -/
inductive Beside (i : Instr) (s t : State) : Prop where
  | nothing (h : onlyCpu t.cpu s t)
  | accesses (hw : writesMemory i = true) (h : AccessFrame s t)
  | mode (hi : i = .stop) (m : Mode) (k : Nat) (h : t = (s.withMode m).spend k)

/-- What an instruction that answers may have done. -/
structure InstrFrame (i : Instr) (s t : State) : Prop where
  registers : RegistersKept i s.cpu t.cpu
  beside : Beside i s t

theorem onlyCpu_trans {c d : Cpu} {s t u : State} (h : onlyCpu c s t) (h' : onlyCpu d t u) : onlyCpu d s u := by
  obtain ⟨⟨j, rfl⟩, -⟩ := h
  obtain ⟨⟨k, rfl⟩, -⟩ := h'
  exact ⟨⟨j + k, State.spend_spend (s.withCpu d) j k⟩, fun _ => rfl⟩

/-- An instruction that changes CPU registers only. -/
theorem InstrFrame.of_onlyCpu {i : Instr} {s t : State} {c : Cpu} (h : onlyCpu c s t) (hc : RegistersKept i s.cpu c) :
    InstrFrame i s t := by
  obtain ⟨⟨k, rfl⟩, -⟩ := h
  exact ⟨hc, .nothing (onlyCpu_intro c s k)⟩

/-- An instruction that reads first, with the CPU registers `d` after that, and then changes CPU registers only. -/
theorem InstrFrame.of_reads {α : Type} {i : Instr} {r : Res α} {f : α → State → State} {s t : State} (d : Cpu)
    (h : r.done f = .next t) (hr : ∀ v s1, r = .ok v s1 → ∃ k, s1 = (s.withCpu d).spend k)
    (hf : ∀ v k, RegistersKept i s.cpu (f v ((s.withCpu d).spend k)).cpu)
    (honly : ∀ v s1, onlyCpu (f v s1).cpu s1 (f v s1)) : InstrFrame i s t := by
  obtain ⟨v, s1, h1, rfl⟩ := Res.done_eq_next.mp h
  obtain ⟨k, rfl⟩ := hr v s1 h1
  exact ⟨hf v k, .nothing (onlyCpu_trans (onlyCpu_intro d s k) (honly v _))⟩

/-- An instruction that accesses memory, with the CPU registers `d` after it, and then changes CPU registers. -/
theorem InstrFrame.of_accesses {i : Instr} {s s1 : State} {d : Cpu} (hw : writesMemory i = true)
    (h : AccessFrame s s1) (hd : s1.cpu = d) (f : Cpu → Cpu) (hf : RegistersKept i s.cpu (f d)) :
    InstrFrame i s (s1.withCpu (f s1.cpu)) :=
  ⟨hd ▸ hf, .accesses hw (h.trans (.of_withCpu s1 (f s1.cpu) 0))⟩

/-! ## Instructions on a source operand -/

section Source

variable {i : Instr} {src : Source} {s t : State}

theorem accumulate_frame {f : Byte → Byte → Byte → Byte × Byte} (ha : writesA i = true)
    (hf : ∀ m, flagsKept (flagColumn i) s.psw (f s.a m s.psw).2) (h : accumulate f src s = .next t) :
    InstrFrame i s t :=
  .of_reads s.cpu h (fun _ _ => readSource_ok) (fun m _ => { a := by simp [ha], flags := hf m })
    fun _ s1 => onlyCpu_intro _ s1 0

theorem testSource_frame {f : Byte → Byte → Byte} (hf : ∀ m, flagsKept (flagColumn i) s.psw (f m s.psw))
    (h : testSource f src s = .next t) : InstrFrame i s t :=
  .of_reads s.cpu h (fun _ _ => readSource_ok) (fun m _ => { flags := hf m })
    fun _ s1 => onlyCpu_intro _ s1 0

theorem loadX_frame (hx : writesX i = true) (hf : ∀ m, flagsKept (flagColumn i) s.psw (setNZ8 m s.psw))
    (h : loadX src s = .next t) : InstrFrame i s t :=
  .of_reads s.cpu h (fun _ _ => readSource_ok) (fun m _ => { x := by simp [hx], flags := hf m })
    fun _ s1 => onlyCpu_intro _ s1 0

theorem loadY_frame (hy : writesY i = true) (hf : ∀ m, flagsKept (flagColumn i) s.psw (setNZ8 m s.psw))
    (h : loadY src s = .next t) : InstrFrame i s t :=
  .of_reads s.cpu h (fun _ _ => readSource_ok) (fun m _ => { y := by simp [hy], flags := hf m })
    fun _ s1 => onlyCpu_intro _ s1 0

/-- The instructions that read one source operand and write registers only. -/
theorem source_frame {op : SourceOp} (hi : sourceForm i = some (op, src)) (h : op.meaning src s = .next t) :
    InstrFrame i s t := by
  have hcol : flagColumn i = op.flags := by simp [flagColumn, hi]
  cases op with
  | adc | sbc =>
    exact accumulate_frame (by simp [writesA, hi]) (fun _ => by rw [hcol]; exact flagsKept_writeSum8 _ _) h
  | and | or | eor | lda =>
    exact accumulate_frame (by simp [writesA, hi]) (fun _ => by rw [hcol]; exact flagsKept_nz _ _) h
  | cmp | cmpx | cmpy => exact testSource_frame (fun _ => by rw [hcol]; exact flagsKept_nzc _ _ _) h
  | tst => exact testSource_frame (fun _ => by rw [hcol]; exact flagsKept_nz _ _) h
  | bit => exact testSource_frame (fun _ => by rw [hcol]; exact flagsKept_bitTest _ _ _) h
  | ldx => exact loadX_frame (by simp [writesX, hi]) (fun _ => by rw [hcol]; exact flagsKept_nz _ _) h
  | ldy => exact loadY_frame (by simp [writesY, hi]) (fun _ => by rw [hcol]; exact flagsKept_nz _ _) h

end Source

/-! ## Instructions that read and write a byte, and stores -/

theorem writesMemory_of_rmwForm {i : Instr} {p : RmwOp × Operand} (h : rmwForm i = some p) : writesMemory i = true := by
  cases i <;> first | (cases h; done) | rfl

theorem writesMemory_of_storeForm {i : Instr} {p : StoreValue × Operand} (h : storeForm i = some p) :
    writesMemory i = true := by
  cases i <;> first | (cases h; done) | rfl

theorem writesA_of_xma {i : Instr} {o : Operand} (h : rmwForm i = some (.xma, o)) : writesA i = true := by
  cases i <;> first | (cases h; done) | rfl

section Accesses

variable {i : Instr} {o : Operand} {s t : State}

theorem modify_frame {f : Byte → Byte → Byte × Byte} (hw : writesMemory i = true)
    (hf : ∀ v, flagsKept (flagColumn i) s.psw (f v s.psw).2) (h : modify f o s = .next t) : InstrFrame i s t := by
  obtain ⟨v, s1, h1, rfl⟩ := Res.done_eq_next.mp h
  obtain ⟨hcpu, hframe⟩ := at_operand_access (fun _ _ _ => rmwByte_access) h1
  exact .of_accesses hw hframe hcpu (fun c => { c with psw := (f v s.psw).2 }) { flags := hf v }

theorem exchangeA_frame (hw : writesMemory i = true) (ha : writesA i = true) (hcol : flagColumn i = [.n, .z])
    (h : exchangeA o s = .next t) : InstrFrame i s t := by
  obtain ⟨v, s1, h1, rfl⟩ := Res.done_eq_next.mp h
  obtain ⟨hcpu, hframe⟩ := at_operand_access (fun _ _ _ => rmwByte_access) h1
  exact .of_accesses hw hframe hcpu (fun c => { c with a := v, psw := setNZ8 v s.psw })
    { a := by simp [ha], flags := by rw [hcol]; exact flagsKept_nz _ _ }

/-- The instructions that read and write one memory byte. -/
theorem rmw_frame {op : RmwOp} (hi : rmwForm i = some (op, o)) (hs : sourceForm i = none)
    (h : op.meaning o s = .next t) : InstrFrame i s t := by
  have hw := writesMemory_of_rmwForm hi
  have hcol : flagColumn i = op.flags := by simp [flagColumn, hi, hs]
  cases op with
  | asl | rol | lsr | ror => exact modify_frame hw (fun _ => by rw [hcol]; exact flagsKept_nzc _ _ _) h
  | inc | dec | com | tclr1 | tset1 => exact modify_frame hw (fun _ => by rw [hcol]; exact flagsKept_nz _ _) h
  | set1 | clr1 | not1 | stc => exact modify_frame hw (fun _ => flagsKept_refl _ _) h
  | xma => exact exchangeA_frame hw (writesA_of_xma hi) hcol h

theorem store_frame {v : Byte} (hw : writesMemory i = true) (h : store v o s = .next t) : InstrFrame i s t := by
  obtain ⟨_, s1, h1, rfl⟩ := Res.done_eq_next.mp h
  obtain ⟨hcpu, hframe⟩ := at_operand_access (fun _ _ _ => memWrite_access) h1
  exact .of_accesses hw hframe hcpu id {}

end Accesses

end Sys2Proof.Machine
end

section
/-! Every instruction: what it leaves alone (`exec_frame`), shape by shape and then one by one. -/

namespace Sys2Proof.Machine

/-! ## Branches and bit instructions on C -/

theorem loadsPc_of_branchForm {i : Instr} {p : Option (Flag × Bool) × Byte} (h : branchForm i = some p) :
    loadsPc i = true := by
  cases i <;> first | (cases h; done) | rfl

theorem loadsPc_of_byteBranchForm {i : Instr} {p : (Byte → Byte → Bool) × Operand × Byte}
    (h : byteBranchForm i = some p) : loadsPc i = true := by
  cases i <;> first | (cases h; done) | rfl

theorem flagColumn_of_carryForm {i : Instr} {p : CarryOp × Byte × Byte} (h : carryForm i = some p) :
    flagColumn i = [.c] := by
  cases i <;> first | (cases h; done) | rfl

/-- A branch changes PC at most. -/
theorem branchIf_cpu (taken : Bool) (rel : Byte) (s : State) :
    (branchIf taken rel s).cpu = { s.cpu with pc := (branchIf taken rel s).pc } := by
  cases taken <;> rfl

theorem branchIf_onlyCpu (taken : Bool) (rel : Byte) (s : State) :
    onlyCpu (branchIf taken rel s).cpu s (branchIf taken rel s) := by
  cases taken <;> exact onlyCpu_intro _ s 0

theorem branchIf_registers {i : Instr} (hpc : loadsPc i = true) (taken : Bool) (rel : Byte) (s : State) :
    RegistersKept i s.cpu (branchIf taken rel s).cpu := by
  rw [branchIf_cpu]
  exact { pc := by simp [hpc] }

theorem branch_frame {i : Instr} {p : Option (Flag × Bool) × Byte} {s t : State} (hi : branchForm i = some p)
    (h : exec i s = .next t) : InstrFrame i s t := by
  rw [exec_branch s hi] at h
  cases h
  exact ⟨branchIf_registers (loadsPc_of_branchForm hi) _ _ s, .nothing (branchIf_onlyCpu _ _ s)⟩

theorem byteBranch_frame {i : Instr} {p : (Byte → Byte → Bool) × Operand × Byte} {s t : State}
    (hi : byteBranchForm i = some p) (h : exec i s = .next t) : InstrFrame i s t := by
  rw [exec_byteBranch s hi] at h
  exact .of_reads s.cpu h (fun _ _ => readSource_ok)
    (fun _ k => branchIf_registers (loadsPc_of_byteBranchForm hi) _ _ (s.spend k)) fun _ s1 => branchIf_onlyCpu _ _ s1

theorem carry_frame {i : Instr} {p : CarryOp × Byte × Byte} {s t : State} (hi : carryForm i = some p)
    (h : exec i s = .next t) : InstrFrame i s t := by
  have hcol := flagColumn_of_carryForm hi
  rw [exec_carry s hi] at h
  exact .of_reads s.cpu h (fun _ _ => readMemoryBit_ok)
    (fun _ _ => { flags := by rw [hcol]; exact flagsKept_setFlag (by decide) (flagsKept_refl _ _) })
    fun _ s1 => onlyCpu_intro _ s1 0

/-! ## Calls and the stop -/

/-- A call pushes PC, may read a pointer, and loads PC. -/
theorem call_frame {i : Instr} {s s1 : State} {u : Unit} (hw : writesMemory i = true) (hsp : writesSp i = true)
    (hpc : loadsPc i = true) (h : pushPc s = .ok u s1) (k : Nat) (target : Word) :
    InstrFrame i s ((s1.spend k).withPc target) := by
  obtain ⟨hcpu, hframe⟩ := pushPc_access h
  exact .of_accesses (s1 := s1.spend k) hw (hframe.trans (.of_withCpu s1 s1.cpu k)) hcpu
    (fun c => { c with pc := target }) { sp := by simp [hsp], pc := by simp [hpc] }

/-- A push writes memory and SP. -/
theorem push_frame {i : Instr} {v : Byte} {s t : State} {u : Unit} (hw : writesMemory i = true)
    (hsp : writesSp i = true) (h : push8 v s = .ok u t) : InstrFrame i s t := by
  rw [push8_eq] at h
  obtain ⟨hcpu, hframe⟩ := pushAll_access h
  exact .of_accesses hw hframe hcpu id { sp := by simp [hsp] }

theorem releaseDecision_state (s : State) : ∃ k, (releaseDecision s).2 = s.spend k := by
  unfold releaseDecision
  split
  · exact ⟨0, rfl⟩
  · split
    · split
      · exact ⟨0, rfl⟩
      · exact ⟨1, rfl⟩
    · exact ⟨0, rfl⟩

/-- STOP changes the run mode at most, free values used. -/
theorem enterPowerSaving_mode (s : State) : ∃ m k, enterPowerSaving s = (s.withMode m).spend k := by
  obtain ⟨k, hk⟩ := releaseDecision_state (s.withMode (powerSavingMode s.clock))
  unfold enterPowerSaving
  simp only [hk]
  split
  · exact ⟨.run, k, rfl⟩
  · exact ⟨_, k, rfl⟩

/-! ## Registers only -/

theorem dbneY_frame {rel : Byte} {s t : State} (h : exec (.dbneY rel) s = .next t) : InstrFrame (.dbneY rel) s t := by
  cases h
  refine ⟨?_, .nothing (onlyCpu_trans (onlyCpu_intro { s.cpu with y := s.y - 1 } s 0) (branchIf_onlyCpu _ _ _))⟩
  rw [branchIf_cpu]
  exact { y := nofun, pc := nofun }

theorem div_frame {s t : State} (h : exec .div s = .next t) : InstrFrame .div s t := by
  simp only [exec, execDiv] at h
  split at h
  · cases h
    exact ⟨{ a := nofun, y := nofun,
             flags := flagsKept_setFlag (by decide) <| flagsKept_setNZ8 (by decide) (by decide) <|
               flagsKept_setFlag (by decide) (flagsKept_refl _ _) },
      .nothing (onlyCpu_intro _ s 1)⟩
  · cases h
    obtain ⟨k, hk⟩ := divOpen_ok s
    rw [hk]
    exact ⟨{ a := nofun, y := nofun,
             flags := flagsKept_setFlag (by decide) <| flagsKept_setFlag (by decide) <|
               flagsKept_setFlag (by decide) <| flagsKept_setFlag (by decide) (flagsKept_refl _ _) },
      .nothing (onlyCpu_intro _ s k)⟩

/-! ## Instructions that read and then change registers -/

section Reads

variable {s t : State}

theorem ldaAtXInc_frame (h : exec .ldaAtXInc s = .next t) : InstrFrame .ldaAtXInc s t :=
  .of_reads s.cpu h (fun _ _ => readSource_ok) (fun _ _ => { a := nofun, x := nofun, flags := flagsKept_nz _ _ })
    fun _ s1 => onlyCpu_intro _ s1 0

theorem jmpIndAbs_frame {abs : Word} (h : exec (.jmpIndAbs abs) s = .next t) : InstrFrame (.jmpIndAbs abs) s t :=
  .of_reads s.cpu h
    (fun _ _ h => bind_reads h (fun _ _ h => (memRead_ok h).2) fun _ _ _ _ h =>
      bind_reads h (fun _ _ h => (memRead_ok h).2) fun _ _ _ _ h => by cases h; exact ⟨0, rfl⟩)
    (fun _ _ => { pc := nofun }) fun _ s1 => onlyCpu_intro _ s1 0

/-- An instruction that reads a pair and then changes CPU registers only. -/
theorem pair_frame {i : Instr} {d : Byte} {f : Word → State → State} (h : (readPair d s).done f = .next t)
    (hf : ∀ w k, RegistersKept i s.cpu (f w (s.spend k)).cpu)
    (honly : ∀ w s1, onlyCpu (f w s1).cpu s1 (f w s1)) : InstrFrame i s t :=
  .of_reads s.cpu h (fun _ _ => readPair_ok) hf honly

/-- A pop writes the register it names and SP. -/
theorem pop_frame {i : Instr} {f : Byte → State → State} (h : (pop8 s).done f = .next t)
    (hf : ∀ v k, RegistersKept i s.cpu (f v ((s.withSp (s.sp + 1)).spend k)).cpu)
    (honly : ∀ v s1, onlyCpu (f v s1).cpu s1 (f v s1)) : InstrFrame i s t :=
  .of_reads { s.cpu with sp := s.sp + 1 } h (fun _ _ => pop8_spend) hf honly

theorem ret_frame (h : exec .ret s = .next t) : InstrFrame .ret s t :=
  .of_reads { s.cpu with sp := s.sp + 1 + 1 } h (fun _ _ => popWord_spend)
    (fun _ _ => { sp := nofun, pc := nofun }) fun _ s1 => onlyCpu_intro _ s1 0

theorem reti_frame (h : exec .reti s = .next t) : InstrFrame .reti s t := by
  obtain ⟨_, s3, h3, rfl⟩ := Res.done_eq_next.mp h
  obtain ⟨psw, s1, h1, h4⟩ := Res.bind_eq_ok.mp h3
  obtain ⟨pc, s2, h2, h5⟩ := Res.bind_eq_ok.mp h4
  cases h5
  obtain ⟨j, rfl⟩ := pop8_spend h1
  obtain ⟨k, rfl⟩ := popWord_spend h2
  exact .of_onlyCpu (c := { s.cpu with sp := s.sp + 1 + 1 + 1, psw := psw, pc := pc })
    (onlyCpu_trans (onlyCpu_intro { s.cpu with sp := s.sp + 1 } s j) (onlyCpu_intro _ _ k))
    { sp := nofun, pc := nofun, flags := flagsKept_all _ _ }

end Reads

/-! ## Writers of memory of no shape -/

section Writers

variable {s t : State}

theorem staAtXInc_frame (h : exec .staAtXInc s = .next t) : InstrFrame .staAtXInc s t := by
  obtain ⟨_, s1, h1, rfl⟩ := Res.done_eq_next.mp h
  obtain ⟨hcpu, hframe⟩ := at_operand_access (fun _ _ _ => memWrite_access) h1
  exact .of_accesses rfl hframe hcpu (fun c => { c with x := s.x + 1 }) { x := nofun }

theorem dbneDp_frame {dp rel : Byte} (h : exec (.dbneDp dp rel) s = .next t) : InstrFrame (.dbneDp dp rel) s t := by
  obtain ⟨v, s1, h1, rfl⟩ := Res.done_eq_next.mp h
  obtain ⟨hcpu, hframe⟩ := at_operand_access (fun _ _ _ => rmwByte_access) h1
  have honly := branchIf_onlyCpu (v - 1 != 0) rel s1
  exact ⟨hcpu ▸ branchIf_registers rfl _ _ s1, .accesses rfl (hframe.trans honly.accessFrame)⟩

/-- INCW and DECW. -/
theorem modifyPair_frame {i : Instr} {f : Word → Word} {d : Byte} (hw : writesMemory i = true)
    (hcol : flagColumn i = [.n, .z]) (h : modifyPair f d s = .next t) : InstrFrame i s t := by
  obtain ⟨w, s1, rfl, hcpu, hframe⟩ := modifyPair_access h
  exact .of_accesses hw hframe hcpu (fun c => { c with psw := setNZ16 (f w) s.psw })
    { flags := by rw [hcol]; exact flagsKept_nz16 _ _ }

theorem styaDp_frame {dp : Byte} (h : exec (.styaDp dp) s = .next t) : InstrFrame (.styaDp dp) s t := by
  obtain ⟨_, s1, h1, rfl⟩ := Res.done_eq_next.mp h
  obtain ⟨hcpu, hframe⟩ := writePair_access h1
  exact .of_accesses rfl hframe hcpu id {}

theorem callIndDp_frame {dp : Byte} (h : exec (.callIndDp dp) s = .next t) : InstrFrame (.callIndDp dp) s t := by
  obtain ⟨_, s2, h2, rfl⟩ := Res.done_eq_next.mp h
  obtain ⟨_, s1, h1, h3⟩ := Res.bind_eq_ok.mp h2
  obtain ⟨k, rfl⟩ := readPair_ok h3
  exact call_frame rfl rfl rfl h1 k _

theorem brk_frame (h : exec .brk s = .next t) : InstrFrame .brk s t := by
  obtain ⟨_, s1, h1, rfl⟩ := Res.done_eq_next.mp h
  obtain ⟨hcpu, hframe⟩ := takeException_access h1
  exact .of_accesses rfl hframe hcpu id
    { sp := nofun, pc := nofun,
      flags := flagsKept_setFlag (by decide) (flagsKept_setFlag (by decide) (flagsKept_refl _ _)) }

theorem stop_frame (h : exec .stop s = .next t) : InstrFrame .stop s t := by
  obtain ⟨m, k, e⟩ := enterPowerSaving_mode s
  cases h
  rw [e]
  exact ⟨{}, .mode rfl m k rfl⟩

end Writers

/-! ## All instructions -/

/-- What an instruction that answers may have done. -/
theorem exec_frame {i : Instr} {s t : State} (h : exec i s = .next t) : InstrFrame i s t := by
  cases hso : sourceForm i with
  | some p => exact source_frame hso (exec_source s hso ▸ h)
  | none =>
  cases hrm : rmwForm i with
  | some p => exact rmw_frame hrm hso (exec_rmw s hrm ▸ h)
  | none =>
  cases hst : storeForm i with
  | some p => exact store_frame (writesMemory_of_storeForm hst) (exec_store s hst ▸ h)
  | none =>
  cases hbr : branchForm i with
  | some p => exact branch_frame hbr h
  | none =>
  cases hbb : byteBranchForm i with
  | some p => exact byteBranch_frame hbb h
  | none =>
  cases hca : carryForm i with
  | some p => exact carry_frame hca h
  | none =>
  cases i
  case incX | decX | tax | tspx =>
    cases h; exact ⟨{ x := nofun, flags := flagsKept_nz _ _ }, .nothing (onlyCpu_intro _ s 0)⟩
  case incY | decY | tay =>
    cases h; exact ⟨{ y := nofun, flags := flagsKept_nz _ _ }, .nothing (onlyCpu_intro _ s 0)⟩
  case incA | decA | xcn | tya =>
    cases h; exact ⟨{ a := nofun, flags := flagsKept_nz _ _ }, .nothing (onlyCpu_intro _ s 0)⟩
  case aslA | rolA | lsrA | rorA | daa | das =>
    cases h; exact ⟨{ a := nofun, flags := flagsKept_nzc _ _ _ }, .nothing (onlyCpu_intro _ s 0)⟩
  case txa =>
    cases h; exact ⟨{ a := nofun, flags := flagsKept_transferFlags _ _ _ }, .nothing (onlyCpu_intro _ s 0)⟩
  case txsp =>
    cases h; exact ⟨{ sp := nofun, flags := flagsKept_transferFlags _ _ _ }, .nothing (onlyCpu_intro _ s 0)⟩
  case xax => cases h; exact ⟨{ a := nofun, x := nofun }, .nothing (onlyCpu_intro _ s 0)⟩
  case xay => cases h; exact ⟨{ a := nofun, y := nofun }, .nothing (onlyCpu_intro _ s 0)⟩
  case xyx => cases h; exact ⟨{ x := nofun, y := nofun }, .nothing (onlyCpu_intro _ s 0)⟩
  case seta1 | clra1 => cases h; exact ⟨{ a := nofun }, .nothing (onlyCpu_intro _ s 0)⟩
  case clrc | setc | clrg | setg | di | ei =>
    cases h
    exact ⟨{ flags := flagsKept_setFlag (by decide) (flagsKept_refl _ _) }, .nothing (onlyCpu_intro _ s 0)⟩
  case clrv =>
    cases h
    exact ⟨{ flags := flagsKept_setFlag (by decide) (flagsKept_setFlag (by decide) (flagsKept_refl _ _)) },
      .nothing (onlyCpu_intro _ s 0)⟩
  case nop => cases h; exact ⟨{}, .nothing (onlyCpu_intro _ s 0)⟩
  case mul =>
    cases h
    exact ⟨{ a := nofun, y := nofun,
             flags := flagsKept_setFlag (by decide) (flagsKept_setFlag (by decide) (flagsKept_refl _ _)) },
      .nothing (onlyCpu_intro _ s _)⟩
  case div => exact div_frame h
  case ldaAtXInc => exact ldaAtXInc_frame h
  case addwDp | subwDp =>
    exact pair_frame h (fun _ _ => { a := nofun, y := nofun, flags := flagsKept_writeSum16 _ _ _ _ _ })
      fun _ s1 => onlyCpu_intro _ s1 _
  case cmpwDp =>
    exact pair_frame h (fun _ _ => { flags := flagsKept_compare16 _ _ _ }) fun _ s1 => onlyCpu_intro _ s1 0
  case ldyaDp =>
    exact pair_frame h (fun _ _ => { a := nofun, y := nofun, flags := flagsKept_nz16 _ _ })
      fun _ s1 => onlyCpu_intro _ s1 0
  case jmpIndDp => exact pair_frame h (fun _ _ => { pc := nofun }) fun _ s1 => onlyCpu_intro _ s1 0
  case jmpIndAbs => exact jmpIndAbs_frame h
  case popA => exact pop_frame h (fun _ _ => { a := nofun, sp := nofun }) fun _ s1 => onlyCpu_intro _ s1 0
  case popX => exact pop_frame h (fun _ _ => { x := nofun, sp := nofun }) fun _ s1 => onlyCpu_intro _ s1 0
  case popY => exact pop_frame h (fun _ _ => { y := nofun, sp := nofun }) fun _ s1 => onlyCpu_intro _ s1 0
  case popPsw =>
    exact pop_frame h (fun _ _ => { sp := nofun, flags := flagsKept_all _ _ }) fun _ s1 => onlyCpu_intro _ s1 0
  case ret => exact ret_frame h
  case reti => exact reti_frame h
  case jmpAbs => cases h; exact ⟨{ pc := nofun }, .nothing (onlyCpu_intro _ s 0)⟩
  case bbcA | bbsA => cases h; exact ⟨branchIf_registers rfl _ _ s, .nothing (branchIf_onlyCpu _ _ s)⟩
  case dbneY => exact dbneY_frame h
  case staAtXInc => exact staAtXInc_frame h
  case dbneDp => exact dbneDp_frame h
  case decwDp | incwDp => exact modifyPair_frame rfl rfl h
  case styaDp => exact styaDp_frame h
  case pushA | pushX | pushY | pushPsw =>
    obtain ⟨_, s1, h1, rfl⟩ := Res.done_eq_next.mp h
    exact push_frame rfl rfl h1
  case callAbs | pcall | tcall =>
    obtain ⟨_, s1, h1, rfl⟩ := Res.done_eq_next.mp h
    exact call_frame rfl rfl rfl h1 0 _
  case callIndDp => exact callIndDp_frame h
  case brk => exact brk_frame h
  case stop => exact stop_frame h
  all_goals first
    | (cases h; done)
    | (cases hso; done)
    | (cases hrm; done)
    | (cases hst; done)
    | (cases hbr; done)
    | (cases hbb; done)
    | cases hca

end Sys2Proof.Machine
end

section
/-! The writers of flags and registers (spec/10_state.md R20 to R39). -/

namespace Sys2Proof.Machine

/-- An instruction that is not STOP accesses memory or changes CPU registers only, so it stays in the frame. -/
theorem Beside.accessFrame {i : Instr} {s t : State} (h : Beside i s t) (hi : i ≠ .stop) : AccessFrame s t := by
  cases h with
  | nothing h => exact h.accessFrame
  | accesses _ h => exact h
  | mode hstop => exact absurd hstop hi

/-- No instruction changes the setting. -/
theorem Beside.settingKept {i : Instr} {s t : State} (h : Beside i s t) : settingKept s t := by
  cases h with
  | nothing h => exact h.accessFrame.setting
  | accesses _ h => exact h.setting
  | mode _ m k h => subst h; exact settingKept_refl s

/-- Every instruction keeps the invariant. -/
theorem Beside.invariant {i : Instr} {s t : State} (h : Beside i s t) (hs : s.invariant) : t.invariant := by
  cases h with
  | nothing h => exact h.accessFrame.invariant hs
  | accesses _ h => exact h.invariant hs
  | mode _ m k h => subst h; exact State.invariant_congr rfl rfl hs

/-- An instruction that writes no memory leaves every byte of it and every peripheral as it was. -/
theorem Beside.nothing_written {i : Instr} {s t : State} (h : Beside i s t) (hw : writesMemory i = false) :
    (∀ a, t.byteAt a = s.byteAt a) ∧ (t.withMode s.mode).peripherals = s.peripherals := by
  cases h with
  | nothing h =>
    obtain ⟨⟨k, hk⟩, hbytes⟩ := h
    exact ⟨hbytes, by rw [hk]; rfl⟩
  | accesses hw' => rw [hw] at hw'; cases hw'
  | mode _ m k h => subst h; exact ⟨fun _ => rfl, rfl⟩

/-- Settles O9: of the PSW an instruction writes the flags of its FLAG column only. -/
theorem flagWriters : Obligations.FlagWriters := fun _ _ _ f h hf => (exec_frame h).registers.flags f hf

/-- Settles O10, from what an instruction can do to CPU registers and beside them. -/
theorem registerWriters : Obligations.RegisterWriters := by
  intro i s t h
  obtain ⟨⟨ha, hx, hy, hsp, hpc, -⟩, hbeside⟩ := exec_frame h
  exact ⟨ha, hx, hy, hsp, hpc, hbeside.nothing_written, fun hi => (hbeside.accessFrame hi).mode, hbeside.settingKept⟩

end Sys2Proof.Machine
end

section
/-! The invariant of the machine: every step keeps it, and reset establishes it. -/

namespace Sys2Proof.Machine

section Events

variable {s : State}

theorem watchdogMatch_invariant (torn : Torn) (h : s.invariant) : (watchdogMatch torn s).invariant := by
  cases hw : s.clock.wdton with
  | false =>
    rw [watchdogMatch_requests torn hw]
    exact State.invariant_congr rfl rfl h
  | true =>
    rw [watchdogMatch_resets torn hw]
    exact performReset_invariant .watchdog torn h

theorem watchdogTick_invariant (torn : Torn) (h : s.invariant) : (watchdogTick torn s).invariant := by
  unfold watchdogTick
  split
  · exact watchdogMatch_invariant torn h
  · exact State.invariant_congr rfl rfl h

theorem settleWatchdog_invariant (h : s.invariant) : (settleWatchdog s).invariant := by
  obtain ⟨-, e⟩ | ⟨-, e⟩ := settleWatchdog_ok s
  · rwa [e]
  · rw [e]
    exact watchdogMatch_invariant [] h

theorem bitTick_invariant (torn : Torn) (h : s.invariant) : (bitTick torn s).invariant := by
  unfold bitTick
  split
  · exact watchdogTick_invariant torn (State.invariant_congr rfl rfl h)
  · exact State.invariant_congr rfl rfl h

theorem powerFailEvent_invariant (torn : Torn) (h : s.invariant) : (powerFailEvent torn s).invariant := by
  unfold powerFailEvent
  split
  · split
    · exact performReset_invariant .powerFail torn h
    · exact State.invariant_congr rfl rfl h
    · exact State.invariant_congr rfl rfl h
  · split
    · exact performReset_invariant .powerFail torn (State.invariant_congr rfl rfl h)
    · exact State.invariant_congr rfl rfl h

theorem supplyRecovered_invariant (h : s.invariant) : (supplyRecovered s).invariant :=
  State.invariant_congr rfl rfl h

/-- An event that cannot reset the machine is quiet; the others reset it or change peripherals. -/
theorem fireRunning_invariant (e : Event) (h : s.invariant) : (fireRunning e s).invariant := by
  cases e with
  | bitClock torn =>
    simp only [fireRunning]
    split
    · exact bitTick_invariant torn h
    · exact h
  | watchdogMatch torn =>
    simp only [fireRunning]
    split
    · exact watchdogMatch_invariant torn h
    · exact h
  | powerFail torn =>
    simp only [fireRunning]
    split
    · exact h
    · exact powerFailEvent_invariant torn h
  | supplyRecovers => exact supplyRecovered_invariant h
  | resetPin torn => exact performReset_invariant .pin torn h
  | resetPowerOn => exact performReset_invariant .powerOn [] h
  | t0Clock | t1Clock | buzClock | adcDone _ | pins _ _ _ _ =>
    exact (quiet_fireRunning _ s rfl).accessFrame.invariant h

theorem fireEvent_invariant (e : Event) (h : s.invariant) : (fireEvent e s).invariant := by
  unfold fireEvent
  split
  · cases e with
    | supplyRecovers => exact supplyRecovered_invariant h
    | resetPin torn => exact performReset_invariant .pin torn h
    | resetPowerOn => exact performReset_invariant .powerOn [] h
    | _ => exact h
  · exact fireRunning_invariant e h

theorem wake_invariant (h : s.invariant) : (wake s).invariant := by
  unfold wake
  split
  · exact watchdogTick_invariant [] (by split <;> exact State.invariant_congr rfl rfl h)
  · exact watchdogTick_invariant [] (by split <;> exact State.invariant_congr rfl rfl h)
  · exact State.invariant_congr rfl rfl h
  · exact State.invariant_congr rfl rfl h

end Events

/-- A fetch that answers reads program memory and moves PC. -/
theorem fetch8_ok {s t : State} {v : Byte} (h : fetch8 s = .ok v t) : t = s.withPc (s.pc + 1) := by
  obtain ⟨w, s1, h1, h2⟩ := Res.bind_eq_ok.mp h
  unfold memFetch at h1
  split at h1 <;> cases h1
  cases h2
  rfl

/-- Fetching an instruction moves PC and changes nothing else. -/
theorem fetchInstruction_ok {s t : State} {i : Instr} (h : fetchInstruction s = .ok i t) : ∃ pc, t = s.withPc pc := by
  obtain ⟨op, s1, h1, b1⟩ := Res.bind_eq_ok.mp h
  obtain rfl := fetch8_ok h1
  simp only at b1
  split at b1
  · cases b1
    exact ⟨_, rfl⟩
  · obtain ⟨_, s2, h2, b2⟩ := Res.bind_eq_ok.mp b1
    cases b2
    obtain rfl := fetch8_ok h2
    exact ⟨s.pc + 1 + 1, rfl⟩
  · obtain ⟨_, s2, h2, b2⟩ := Res.bind_eq_ok.mp b1
    obtain rfl := fetch8_ok h2
    obtain ⟨_, s3, h3, b3⟩ := Res.bind_eq_ok.mp b2
    cases b3
    obtain rfl := fetch8_ok h3
    exact ⟨s.pc + 1 + 1 + 1, rfl⟩

/-- An instruction that completes in a step: fetched, executed, and the watchdog settled. -/
theorem runInstruction_ok {mid : List Event} {s t : State} (h : runInstruction mid s = .next t) :
    ∃ i pc u, exec i ((s.withPc pc).withMidEvents mid) = .next u ∧ t = settleWatchdog (u.withMidEvents []) := by
  unfold runInstruction at h
  split at h
  · cases h
  · rename_i i s1 hfetch
    obtain ⟨pc, rfl⟩ := fetchInstruction_ok hfetch
    split at h
    · rename_i u hexec
      cases h
      exact ⟨i, pc, u, hexec, rfl⟩
    · cases h
    · cases h

theorem runInstruction_invariant {mid : List Event} {s t : State} (h : runInstruction mid s = .next t)
    (hs : s.invariant) : t.invariant := by
  obtain ⟨i, pc, u, hexec, rfl⟩ := runInstruction_ok h
  have hu : u.invariant := (exec_frame hexec).beside.invariant (State.invariant_congr rfl rfl hs)
  exact settleWatchdog_invariant (State.invariant_congr rfl rfl hu)

theorem acceptInterrupt_invariant {src : IntSource} {s t : State} {u : Unit} (h : acceptInterrupt src s = .ok u t)
    (hs : s.invariant) : t.invariant :=
  (takeException_access h).2.invariant (State.invariant_congr rfl rfl hs)

theorem cpuTurn_invariant {mid : List Event} {s t : State} (h : cpuTurn mid s = .next t) (hs : s.invariant) :
    t.invariant := by
  obtain ⟨k, hk⟩ := releaseDecision_state s
  unfold cpuTurn at h
  rw [hk] at h
  split at h
  case isTrue => cases h; exact State.invariant_congr rfl rfl hs
  split at h
  case isTrue => cases h; exact hs
  split at h
  case isTrue =>
    split at h
    · obtain ⟨_, s1, h1, rfl⟩ := Res.done_eq_next.mp h
      exact acceptInterrupt_invariant h1 hs
    · exact runInstruction_invariant h hs
  split at h
  case isTrue => cases h; exact wake_invariant (State.invariant_congr rfl rfl hs)
  case isFalse => cases h; exact State.invariant_congr rfl rfl hs

/-- Settles O7, by the move a step makes: the CPU's, which is an instruction, an interrupt, a wake-up or the read of the
reset vector, or an event of the environment. -/
theorem stepKeepsInvariant : Obligations.StepKeepsInvariant := by
  intro s t hs h
  unfold step oneStep at h
  split at h
  · exact cpuTurn_invariant h hs
  · exact cpuTurn_invariant h (State.invariant_congr rfl rfl hs)
  · cases h
    exact fireEvent_invariant _ (State.invariant_congr rfl rfl hs)

/-- Settles O6: the memory list of the reset state is empty. -/
theorem resetInvariant : Obligations.ResetInvariant := ⟨rfl, rfl⟩

/-- Settles O51: the values of the reset state, register by register. -/
theorem resetValues : Obligations.ResetValues :=
  ⟨rfl, rfl, ⟨rfl, rfl, rfl, rfl, rfl, rfl, rfl⟩, ⟨rfl, rfl, rfl, rfl, rfl, rfl, rfl, rfl, rfl, rfl, rfl, rfl⟩,
    ⟨rfl, rfl, rfl, rfl, rfl⟩, ⟨rfl, rfl, rfl, rfl, rfl, rfl, rfl, rfl⟩, ⟨rfl, rfl⟩, ⟨rfl, rfl, rfl, rfl⟩, rfl⟩

end Sys2Proof.Machine
end

section
/-! A step runs the instruction decoded from the bytes at PC (spec/30_encoding.md R100, R103). -/

namespace Sys2Proof.Machine

/-- Bytes that decode to an instruction with none left over: the opcode, and as many operand bytes as its row takes. -/
theorem decode_all {bytes : List Byte} {i : Instr} (h : decode bytes = .ok (i, [])) :
    ∃ op operands, bytes = op :: operands ∧ operands.length = (buildOf op).operandBytes ∧
      (buildOf op).apply op (operands.getD 0 0) (operands.getD 1 0) = i := by
  cases bytes with
  | nil => cases h
  | cons op operands =>
    simp only [decode, decodeIn] at h
    split at h
    · cases h
    · rename_i hlen
      simp only [Except.ok.injEq, Prod.mk.injEq, List.drop_eq_nil_iff] at h
      exact ⟨op, operands, rfl, Nat.le_antisymm h.2 (Nat.le_of_not_lt hlen), h.1⟩

/-- An opcode takes at most two operand bytes. -/
theorem operandBytes_cases (b : Build) : b.operandBytes = 0 ∨ b.operandBytes = 1 ∨ b.operandBytes = 2 := by
  cases b <;> simp [Build.operandBytes]

/-- A fetch of a byte depends on memory and device. -/
theorem memFetch_congr {a : Word} {v : Byte} {s t : State} (hm : t.mem = s.mem) (hd : t.device = s.device)
    (h : memFetch a s = .ok v s) : memFetch a t = .ok v t := by
  unfold memFetch State.romByte at *
  rw [hm, hd]
  split at h
  · simp only [Res.ok.injEq] at h
    rw [h.1]
  all_goals cases h

theorem fetch8_of_memFetch {v : Byte} {s : State} (h : memFetch s.pc s = .ok v s) :
    fetch8 s = .ok v (s.withPc (s.pc + 1)) := by
  simp [fetch8, h]

/-- The bytes at PC are those of an instruction: it is fetched, and PC moves past it. -/
theorem fetchInstruction_of_decode {s : State} {bytes : List Byte} {i : Instr} (hdec : decode bytes = .ok (i, []))
    (hbytes : ∀ k, k < bytes.length → memFetch (s.pc + BitVec.ofNat 16 k) s = .ok (bytes.getD k 0) s) :
    fetchInstruction s = .ok i (s.withPc (s.pc + BitVec.ofNat 16 bytes.length)) := by
  have hfetch : ∀ k, k < bytes.length → fetch8 (s.withPc (s.pc + BitVec.ofNat 16 k)) =
      .ok (bytes.getD k 0) (s.withPc (s.pc + BitVec.ofNat 16 (k + 1))) := fun k hk => by
    have hmem := memFetch_congr (s := s) (t := s.withPc (s.pc + BitVec.ofNat 16 k)) rfl rfl (hbytes k hk)
    rw [fetch8_of_memFetch hmem, State.withPc_pc, BitVec.add_assoc,
      ← BitVec.ofNat_add_ofNat]
    rfl
  obtain ⟨op, operands, rfl, hlen, rfl⟩ := decode_all hdec
  have hop : fetch8 s = .ok op (s.withPc (s.pc + BitVec.ofNat 16 1)) := by
    simpa [State.withPc] using hfetch 0 (Nat.zero_lt_succ _)
  simp only [fetchInstruction, hop, Res.bind_ok]
  obtain hn | hn | hn := operandBytes_cases (buildOf op)
  · obtain rfl := List.length_eq_zero_iff.mp (hlen.trans hn)
    rw [hn]
    rfl
  · obtain ⟨b1, rfl⟩ := List.length_eq_one_iff.mp (hlen.trans hn)
    have h1 := hfetch 1 (by simp)
    simp only [hn, h1, Res.bind_ok]
    rfl
  · obtain ⟨b1, b2, rfl⟩ := List.length_eq_two.mp (hlen.trans hn)
    have h1 := hfetch 1 (by simp)
    have h2 := hfetch 2 (by simp)
    simp only [hn, h1, h2, Res.bind_ok]
    rfl

/-- The CPU's turn where it is to run an instruction. -/
theorem cpuTurn_runs {s : State} (mid : List Event) (h : runsInstruction s) : cpuTurn mid s = runInstruction mid s := by
  obtain ⟨hboot, hclock, hmode, haccept⟩ := h
  simp [cpuTurn, hboot, hclock, hmode, haccept]

/-- A step in which the CPU runs an instruction. -/
theorem step_runs {s : State} {mid : List Event} {rest : List Turn} (h : runsInstruction s) (hc : cpuMoves s mid rest) :
    step s = runInstruction mid (s.withSchedule rest) := by
  have hrest : runsInstruction (s.withSchedule rest) := h
  obtain hs | ⟨hs, rfl, rfl⟩ := hc
  · simp only [step, oneStep, hs]
    exact cpuTurn_runs mid hrest
  · simp only [step, oneStep, hs]
    rw [cpuTurn_runs [] h, ← hs]
    rfl

/-- Settles O5: the step fetches the decoded instruction and executes it past its bytes. -/
theorem stepRunsDecodedInstruction : Obligations.StepRunsDecodedInstruction := by
  intro s mid rest bytes i hruns hcpu hdec hbytes
  have hfetch := fetchInstruction_of_decode (s := s.withSchedule rest) hdec
    fun k hk => memFetch_congr (s := s) rfl rfl (hbytes k hk)
  rw [step_runs hruns hcpu, runInstruction, hfetch]
  rfl

end Sys2Proof.Machine
end

section
/-! PUSH and POP (spec/45_control.md R304 to R311). -/

namespace Sys2Proof.Machine

/-- The meaning of a push. -/
theorem exec_push {i : Instr} {v : Byte} {s : State} (h : pushForm i s = some v) :
    exec i s = (pushAll [v] s).done fun _ s1 => s1 := by
  rw [← push8_eq]
  cases i <;> first | (cases h; done) | (cases h; rfl)

/-- The meaning of a pop: the register it names takes the byte popped. -/
theorem exec_pop {i : Instr} {c : Cpu} {v : Byte} (s : State) (h : (popForm i c v).isSome = true) :
    ∃ f : Cpu → Byte → Cpu, (∀ c v, popForm i c v = some (f c v)) ∧
      exec i s = (pop8 s).done fun v s1 => s1.withCpu (f s1.cpu v) := by
  cases i
  case popA => exact ⟨fun c v => { c with a := v }, fun _ _ => rfl, rfl⟩
  case popX => exact ⟨fun c v => { c with x := v }, fun _ _ => rfl, rfl⟩
  case popY => exact ⟨fun c v => { c with y := v }, fun _ _ => rfl, rfl⟩
  case popPsw => exact ⟨fun c v => { c with psw := v }, fun _ _ => rfl, rfl⟩
  all_goals cases h

/-- What a register shows does not depend on SP. -/
theorem sfrView_withSp (r : Sfr) (s : State) (p : Byte) : sfrView r (s.withSp p) = sfrView r s := rfl

/-- A sample of a view does not depend on SP. -/
theorem View.sample_withSp (w : View) (s : State) (p : Byte) :
    w.sample (s.withSp p) = ((w.sample s).1, (w.sample s).2.withSp p) := by
  unfold View.sample
  split <;> rfl

/-- A memory read does not depend on SP. -/
theorem memRead_withSp {a : Word} {v : Byte} {s t : State} (p : Byte) (h : memRead a s = .ok v t) :
    memRead a (s.withSp p) = .ok v (t.withSp p) := by
  unfold memRead at *
  rw [State.withSp_device]
  split at h
  case h_1 | h_2 => cases h; rfl
  case h_3 => cases h; simp only [readSfr, sfrView_withSp, View.sample_withSp]
  case h_4 => cases h

/-- Settles O42: a push is `pushAll` of one byte; a pop reads the byte above SP. -/
theorem pushesAndPops : Obligations.PushesAndPops := by
  refine ⟨fun i v s hi => ⟨fun hp => ?_, fun hp => ?_⟩, fun i s hi => ⟨fun v s1 hr => ?_, fun hr => ?_⟩⟩
  · obtain ⟨t, hpush, hpushed, honly⟩ := pushAll_pushable (bytes := [v]) (by simp) hp
    exact ⟨t, hpushed, by simp [exec_push hi, hpush], honly⟩
  · obtain ⟨e, he⟩ := pushAll_faults (bytes := [v]) hp
    exact ⟨e, by simp [exec_push hi, he]⟩
  · obtain ⟨f, hf, hexec⟩ := exec_pop s hi
    obtain ⟨-, k, rfl⟩ := memRead_ok hr
    have hpop : pop8 s = .ok v ((s.spend k).withSp (s.sp + 1)) := memRead_withSp _ hr
    exact ⟨f { s.cpu with sp := s.sp + 1 } v, _, hf _ _, by rw [hexec, hpop]; rfl, onlyCpu_intro _ s k⟩
  · obtain ⟨f, -, hexec⟩ := exec_pop s hi
    obtain ⟨e, he⟩ := memRead_faults (s := s.withSp (s.sp + 1)) hr
    exact ⟨e, by rw [hexec, pop8, he]; rfl⟩

end Sys2Proof.Machine
end

section
/-! The program memory, the device and its options are the same after every step (spec/20_memory.md R65, R78): a write
that answers goes to RAM or to a control register, and a reset touches RAM only. -/

namespace Sys2Proof.Machine

/-! ## Addresses below the program memory -/

/-- The program memory lies above RAM, control registers and stack (R60). -/
theorem Device.le_romBase (d : Device) : 0xF000 ≤ d.romBase := by cases d <;> decide

theorem regionOf_rom {d : Device} {a : Word} (h : d.romBase ≤ a.toNat) : regionOf d a = .rom := by
  have := d.le_romBase
  rw [regionOf, if_neg (by omega), if_pos h]

/-- A direct-page or stack address is below the program memory. -/
theorem zext16_lt_romBase (d : Device) (b : Byte) : (zext16 b).toNat < d.romBase := by
  have := d.le_romBase
  have := b.isLt
  simp only [zext16, BitVec.toNat_setWidth]
  omega

theorem lt_romBase_of_writable {d : Device} {a : Word} (h : writable d a = true) : a.toNat < d.romBase := by
  by_contra hrom
  rw [writable, regionOf_rom (Nat.le_of_not_lt hrom)] at h
  cases h

/-- Only a byte that may be read and written completes a read-modify-write. -/
theorem writable_of_rmwByte_ok {a : Word} {f : Byte → Byte} {s t : State} {v : Byte} (h : rmwByte a f s = .ok v t) :
    writable s.device a = true := by
  cases hm : modifiable s.device a with
  | true => exact modifiable_writable hm
  | false =>
    obtain ⟨e, he⟩ := rmwByte_faults f hm
    rw [he] at h
    cases h

/-! ## What an instruction writes -/

/-- An access at the effective address of an operand that only a writable address lets answer. -/
theorem operand_writable {α : Type} {o : Operand} {g : Word → State → Res α} {f : α → State → State} {s t : State}
    (hg : ∀ ea s1 v s2, g ea s1 = .ok v s2 → writable s1.device ea = true)
    (h : ((effectiveAddress o s).bind g).done f = .next t) :
    ∃ ea s1, effectiveAddress o s = .ok ea s1 ∧ writable s.device ea = true := by
  obtain ⟨v, s2, h1, -⟩ := Res.done_eq_next.mp h
  obtain ⟨ea, s1, h2, h3⟩ := Res.bind_eq_ok.mp h1
  obtain ⟨k, rfl⟩ := effectiveAddress_ok h2
  exact ⟨ea, _, h2, hg ea (s.spend k) v s2 h3⟩

theorem rmw_writable {op : RmwOp} {o : Operand} {s t : State} (h : op.meaning o s = .next t) :
    ∃ ea s1, effectiveAddress o s = .ok ea s1 ∧ writable s.device ea = true := by
  cases op <;> exact operand_writable (fun _ _ _ _ => writable_of_rmwByte_ok) h

/-- An instruction that stores to an operand and answers has stored to a writable address. -/
theorem writtenOperand_writable {i : Instr} {o : Operand} {s t : State} (hi : writtenOperand i = some o)
    (h : exec i s = .next t) : ∃ ea s1, effectiveAddress o s = .ok ea s1 ∧ writable s.device ea = true := by
  unfold writtenOperand at hi
  split at hi
  case h_1 hst =>
    cases hi
    exact operand_writable (fun _ _ _ _ hw => (memWrite_ok hw).1) (exec_store s hst ▸ h)
  case h_2 hrm =>
    cases hi
    exact rmw_writable (exec_rmw s hrm ▸ h)
  case h_3 =>
    cases hi
    exact operand_writable (g := fun ea s1 => memWrite ea s.a s1) (fun _ _ _ _ hw => (memWrite_ok hw).1) h
  case h_4 =>
    cases hi
    exact operand_writable (fun _ _ _ _ => writable_of_rmwByte_ok) h
  case h_5 => cases hi

theorem stackBytes_lt_romBase {s : State} {n : Nat} {a : Word} (ha : a ∈ (List.range n).map (stackByte s)) :
    a.toNat < s.device.romBase := by
  obtain ⟨k, -, rfl⟩ := List.mem_map.mp ha
  exact zext16_lt_romBase _ _

/-- No address that an instruction writes lies in the program memory, if the instruction answers (R65). -/
theorem writtenBy_lt_romBase {i : Instr} {s t : State} (h : exec i s = .next t) {a : Word} (ha : a ∈ writtenBy i s) :
    a.toNat < s.device.romBase := by
  unfold writtenBy at ha
  split at ha
  case h_1 hop =>
    obtain ⟨ea, s1, hea, hw⟩ := writtenOperand_writable hop h
    rw [hea] at ha
    obtain rfl := List.mem_singleton.mp ha
    exact lt_romBase_of_writable hw
  case h_2 =>
    simp only [List.mem_cons, List.not_mem_nil, or_false] at ha
    obtain rfl | rfl := ha <;> exact zext16_lt_romBase _ _
  case h_3 => exact stackBytes_lt_romBase ha

/-! ## The program kept -/

/-- The device, its options and every byte of the program memory are as they were. -/
structure ProgramKept (s t : State) : Prop where
  device : t.device = s.device
  options : t.options = s.options
  program : ∀ a : Word, s.device.romBase ≤ a.toNat → t.romByte a = s.romByte a

theorem ProgramKept.trans {s t u : State} (h : ProgramKept s t) (h' : ProgramKept t u) : ProgramKept s u :=
  ⟨h'.device.trans h.device, h'.options.trans h.options,
    fun a ha => (h'.program a (h.device ▸ ha)).trans (h.program a ha)⟩

/-- A change of other fields than memory, device and options. -/
theorem ProgramKept.of_fields {s t : State} (hm : t.mem = s.mem) (hd : t.device = s.device)
    (ho : t.options = s.options) : ProgramKept s t :=
  ⟨hd, ho, fun a _ => by rw [State.romByte, State.romByte, hm]⟩

theorem ProgramKept.refl (s : State) : ProgramKept s s := .of_fields rfl rfl rfl

/-- A change of memory below the program memory. -/
theorem ProgramKept.of_memoryKept {touched : Word → Prop} {s t : State} (hset : settingKept s t)
    (hmem : memoryKept touched s t) (htouched : ∀ a, touched a → a.toNat < s.device.romBase) : ProgramKept s t := by
  obtain ⟨hd, ho, -⟩ := hset
  refine ⟨hd, ho, fun a ha => ?_⟩
  have hbyte := hmem a fun ht => absurd (htouched a ht) (Nat.not_lt.mpr ha)
  simpa [State.byteAt, hd, regionOf_rom ha] using hbyte

theorem quiet.programKept {s t : State} (h : quiet s t) : ProgramKept s t := by
  obtain ⟨-, hmem, -, hd, ho, -⟩ := h
  exact .of_fields hmem hd ho

/-- A reset from any cause changes RAM only (R557). -/
theorem performReset_programKept (cause : ResetCause) (torn : Torn) (s : State) :
    ProgramKept s (performReset cause torn s) := by
  refine ⟨rfl, rfl, fun a ha => ?_⟩
  have hbase := s.device.le_romBase
  have hmem : (performReset cause torn s).mem = resetMemory cause torn s.mem := rfl
  rw [State.romByte, State.romByte, hmem, resetMemory_read cause torn s.mem (by omega)]

/-! ## Events -/

section Events

variable (s : State)

theorem watchdogMatch_programKept (torn : Torn) : ProgramKept s (watchdogMatch torn s) := by
  cases hw : s.clock.wdton with
  | false => exact (quiet_watchdogMatch torn hw).programKept
  | true =>
    rw [watchdogMatch_resets torn hw]
    exact performReset_programKept .watchdog torn s

theorem watchdogTick_programKept (torn : Torn) : ProgramKept s (watchdogTick torn s) := by
  unfold watchdogTick
  split
  · exact watchdogMatch_programKept s torn
  · exact .of_fields rfl rfl rfl

theorem settleWatchdog_programKept : ProgramKept s (settleWatchdog s) := by
  obtain ⟨-, e⟩ | ⟨-, e⟩ := settleWatchdog_ok s
  · rw [e]
    exact .refl s
  · rw [e]
    exact watchdogMatch_programKept s []

theorem bitTick_programKept (torn : Torn) : ProgramKept s (bitTick torn s) := by
  unfold bitTick
  split
  · exact ProgramKept.trans (t := (s.withClock { s.clock with bitr := 0 }).request .basicInterval)
      (.of_fields rfl rfl rfl) (watchdogTick_programKept _ torn)
  · exact .of_fields rfl rfl rfl

/-- A power failure resets the machine or changes the power-fail detector. -/
theorem powerFailEvent_programKept (torn : Torn) : ProgramKept s (powerFailEvent torn s) := by
  unfold powerFailEvent
  split
  · split
    · exact performReset_programKept .powerFail torn s
    · exact .of_fields rfl rfl rfl
    · exact .of_fields rfl rfl rfl
  · split
    · exact ProgramKept.trans (t := s.spend 1) (.of_fields rfl rfl rfl)
        (performReset_programKept .powerFail torn _)
    · exact .of_fields rfl rfl rfl

theorem supplyRecovered_programKept : ProgramKept s (supplyRecovered s) := .of_fields rfl rfl rfl

theorem fireRunning_programKept (e : Event) : ProgramKept s (fireRunning e s) := by
  cases e with
  | bitClock torn =>
    simp only [fireRunning]
    split
    · exact bitTick_programKept s torn
    · exact .refl s
  | watchdogMatch torn =>
    simp only [fireRunning]
    split
    · exact watchdogMatch_programKept s torn
    · exact .refl s
  | powerFail torn =>
    simp only [fireRunning]
    split
    · exact .refl s
    · exact powerFailEvent_programKept s torn
  | supplyRecovers => exact supplyRecovered_programKept s
  | resetPin torn => exact performReset_programKept .pin torn s
  | resetPowerOn => exact performReset_programKept .powerOn [] s
  | t0Clock | t1Clock | buzClock | adcDone _ | pins _ _ _ _ => exact (quiet_fireRunning _ s rfl).programKept

theorem fireEvent_programKept (e : Event) : ProgramKept s (fireEvent e s) := by
  unfold fireEvent
  split
  · cases e with
    | supplyRecovers => exact supplyRecovered_programKept s
    | resetPin torn => exact performReset_programKept .pin torn s
    | resetPowerOn => exact performReset_programKept .powerOn [] s
    | _ => exact .refl s
  · exact fireRunning_programKept s e

/-- The wake-up from a mode that stopped the oscillator counts an overflow; the others change the mode only. -/
theorem wake_programKept : ProgramKept s (wake s) := by
  cases hm : s.mode with
  | stop | rcWdt =>
    obtain e | e := wake_counts (s := s) (by simp [hm])
    all_goals
      rw [e]
      refine ProgramKept.trans ?_ (watchdogTick_programKept _ [])
      exact .of_fields rfl rfl rfl
  | wakeupTimer | run =>
    simp only [wake, hm]
    exact .of_fields rfl rfl rfl

end Events

/-! ## Steps -/

/-- An instruction that answers keeps the program: what it writes is no program memory. -/
theorem exec_programKept {i : Instr} {s t : State} (h : exec i s = .next t) : ProgramKept s t :=
  .of_memoryKept (exec_frame h).beside.settingKept (exec_writtenBy h) fun _ => writtenBy_lt_romBase h

theorem runInstruction_programKept {mid : List Event} {s t : State} (h : runInstruction mid s = .next t) :
    ProgramKept s t := by
  obtain ⟨i, pc, u, hexec, rfl⟩ := runInstruction_ok h
  have hfetched : ProgramKept s ((s.withPc pc).withMidEvents mid) := .of_fields rfl rfl rfl
  have hended : ProgramKept u (u.withMidEvents []) := .of_fields rfl rfl rfl
  exact ((hfetched.trans (exec_programKept hexec)).trans hended).trans (settleWatchdog_programKept _)

/-- An interrupt acceptance writes three bytes of the stack. -/
theorem acceptInterrupt_programKept {src : IntSource} {s t : State} {u : Unit} (h : acceptInterrupt src s = .ok u t) :
    ProgramKept s t :=
  ProgramKept.trans (t := s.withIrq (src.clear s.irq)) (.of_fields rfl rfl rfl)
    (.of_memoryKept (takeException_access h).2.setting (takeException_kept h) fun _ => stackBytes_lt_romBase)

theorem cpuTurn_programKept {mid : List Event} {s t : State} (h : cpuTurn mid s = .next t) : ProgramKept s t := by
  obtain ⟨k, hk⟩ := releaseDecision_state s
  unfold cpuTurn at h
  rw [hk] at h
  split at h
  case isTrue => cases h; exact .of_fields rfl rfl rfl
  split at h
  case isTrue => cases h; exact .refl s
  split at h
  case isTrue =>
    split at h
    · obtain ⟨_, s1, h1, rfl⟩ := Res.done_eq_next.mp h
      exact acceptInterrupt_programKept h1
    · exact runInstruction_programKept h
  split at h
  case isTrue => cases h; exact ProgramKept.trans (t := s.spend k) (.of_fields rfl rfl rfl) (wake_programKept _)
  case isFalse => cases h; exact .of_fields rfl rfl rfl

theorem step_programKept {s t : State} (h : step s = .next t) : ProgramKept s t := by
  have hturn : ∀ rest, ProgramKept s (s.withSchedule rest) := fun _ => .of_fields rfl rfl rfl
  unfold step oneStep at h
  split at h
  · exact cpuTurn_programKept h
  · exact (hturn _).trans (cpuTurn_programKept h)
  · cases h
    exact (hturn _).trans (fireEvent_programKept _ _)

/-- Settles O8, by the move a step makes. -/
theorem stepKeepsProgram : Obligations.StepKeepsProgram := fun _ _ h =>
  have hkept := step_programKept h
  ⟨hkept.device, hkept.options, hkept.program⟩

end Sys2Proof.Machine
end

section
/-! CLR1 of a bit of IRQH overwrites a request set between its read and its write (spec/70_reset_and_hazards.md R562). -/

namespace Sys2Proof.Machine

/-- A settled bit of a view reads as its value. -/
theorem View.sample_getLsbD {w : View} {j : Nat} (s : State) (hmask : w.mask.getLsbD j = true) :
    (w.sample s).1.getLsbD j = w.value.getLsbD j := by
  unfold View.sample
  split
  · rfl
  · rw [BitVec.getLsbD_or, BitVec.getLsbD_and, BitVec.getLsbD_and, BitVec.getLsbD_not]
    simp [hmask]

theorem sfrAt_irqh : sfrAt 0xE4 = some .irqh := rfl

/-- A read of IRQH shows the request flags in bits 7 to 4 (R405). -/
theorem memRead_irqh {s t : State} {v : Byte} (h : memRead 0xE4 s = .ok v t) {n : Nat} (hn : n < 4) :
    v.getLsbD (n + 4) = s.irq.irqh.getLsbD n := by
  rw [memRead_sfr s sfrAt_irqh] at h
  cases h
  have hmask : ∀ m, m < 4 → (0xF0 : Byte).getLsbD (m + 4) = true := by decide
  have hsample := View.sample_getLsbD (w := sfrView .irqh s) s (hmask n hn)
  have hvalue : (s.irq.irqh ++ 0#4).getLsbD (n + 4) = s.irq.irqh.getLsbD n := BitVec.getLsbD_append.trans (by simp)
  exact hsample.trans hvalue

/-- A write to IRQH stores bits 7 to 4 as the request flags, whatever they were (R405, R407). -/
theorem memWrite_irqh {s t : State} {v : Byte} {u : Unit} (h : memWrite 0xE4 v s = .ok u t) {n : Nat} (hn : n < 4) :
    t.irq.irqh.getLsbD n = v.getLsbD (n + 4) := by
  rw [memWrite_sfr v s sfrAt_irqh nofun] at h
  cases h
  simp [writeSfr, field, hn, Nat.add_comm]

/-- A read-modify-write of IRQH stores what it makes of the byte read, whatever events fired in between. -/
theorem rewrites_irqh {v r : Byte} {s t : State} (h : rewrites 0xE4 v r s t) {n : Nat} (hn : n < 4) :
    v.getLsbD (n + 4) = s.irq.irqh.getLsbD n ∧ t.irq.irqh.getLsbD n = r.getLsbD (n + 4) := by
  obtain ⟨k, hread, hwrite⟩ := h
  exact ⟨memRead_irqh hread hn, memWrite_irqh hwrite hn⟩

/-- A change of the byte at a control register changes no byte of memory. -/
theorem byteAt_of_memoryKept_sfr {ea : Word} {r : Sfr} {s t : State} (hr : sfrAt ea = some r)
    (hdevice : t.device = s.device) (h : memoryKept (· = ea) s t) (a : Word) : t.byteAt a = s.byteAt a := by
  by_cases ha : a = ea
  · subst ha
    rw [State.byteAt, State.byteAt, hdevice, regionOf_sfr _ hr]
  · exact h a ha

/-- Settles O60: the byte written is made of the byte read, so the events in between leave no trace in IRQH. -/
theorem requestLostByReadModifyWrite : Obligations.RequestLostByReadModifyWrite := by
  intro bit s hg
  have hea : effectiveAddress (.dp 0xE4) s = .ok 0xE4 s := directPage_clear hg
  have hmod : modifiable s.device 0xE4 = true := by
    simp only [modifiable, regionOf_sfr s.device sfrAt_irqh]
    rfl
  obtain ⟨v, t, hrw, hexec, hstored⟩ := modify_answers (fun v psw => (v &&& ~~~bitMask bit, psw)) hea hmod
  obtain ⟨hcpu, -, hset, hmem, -⟩ := storedOnly_withPsw hstored s.psw
  have hclr : exec (.clr1 bit 0xE4) s = .next (t.withPsw s.psw) :=
    (exec_rmw (op := .clr1 bit) (o := .dp 0xE4) s rfl).trans hexec
  refine ⟨_, hclr, hcpu, byteAt_of_memoryKept_sfr sfrAt_irqh hset.1 hmem, fun n hn => ?_⟩
  obtain ⟨hread, hwritten⟩ := rewrites_irqh hrw hn
  rw [State.withPsw_irq, hwritten, clear_getLsbD v bit (n + 4) (by omega), hread]
  by_cases hb : n + 4 = bit.toNat <;> simp [hb]

end Sys2Proof.Machine
end

section
/-! The rows of the opcode map and the encoder agree (spec/30_encoding.md R102, R129): what a row makes of operand bytes
is well-formed and encodes to the opcode and those bytes. -/

namespace Sys2Proof

open Machine

/-! ## Bytes of words and bit fields of opcodes -/

@[simp] theorem loByte_wordOf (hi lo : Byte) : loByte (wordOf hi lo) = lo :=
  (wordOf_inj.mp (wordOf_bytes (wordOf hi lo))).2

@[simp] theorem hiByte_wordOf (hi lo : Byte) : hiByte (wordOf hi lo) = hi :=
  (wordOf_inj.mp (wordOf_bytes (wordOf hi lo))).1

theorem bitOpcode_bit : ∀ (bit : BitVec 3) (low : BitVec 5), (bitOpcode bit low).extractLsb' 5 3 = bit := by decide

/-- An opcode is its bit number and its low five bits. -/
theorem bitOpcode_fields : ∀ op : Byte, bitOpcode (op.extractLsb' 5 3) (op.setWidth 5) = op := by decide

/-- An opcode is its table-call number and its low four bits. -/
theorem nibble_fields : ∀ op : Byte, op.extractLsb' 4 4 ++ op.setWidth 4 = op := by decide

theorem setWidth_and_ones5 : ∀ op : Byte, (op &&& 0x1F).setWidth 5 = op.setWidth 5 := by decide

theorem setWidth_and_ones4 : ∀ op : Byte, (op &&& 0x0F).setWidth 4 = op.setWidth 4 := by decide

/-! ## Rows -/

/-- A format and the encoder agree at an opcode. -/
def Build.Agrees (b : Build) (op : Byte) : Prop :=
  match b with
  | .none i => i.wellFormed = true ∧ encode i = [op]
  | .one f => ∀ b1, (f b1).wellFormed = true ∧ encode (f b1) = [op, b1]
  | .two f => ∀ b1 b2, (f b1 b2).wellFormed = true ∧ encode (f b1 b2) = [op, b1, b2]
  | .word f => ∀ w, (f w).wellFormed = true ∧ encode (f w) = [op, loByte w, hiByte w]
  | .bitOne f => ∀ b1, (f (op.extractLsb' 5 3) b1).wellFormed = true ∧ encode (f (op.extractLsb' 5 3) b1) = [op, b1]
  | .bitTwo f => ∀ b1 b2, (f (op.extractLsb' 5 3) b1 b2).wellFormed = true ∧
      encode (f (op.extractLsb' 5 3) b1 b2) = [op, b1, b2]
  | .nibble f => (f (op.extractLsb' 4 4)).wellFormed = true ∧ encode (f (op.extractLsb' 4 4)) = [op]

/-- What a format that agrees makes of an opcode and its operand bytes encodes to them. -/
theorem Build.Agrees.encode_apply {b : Build} {op : Byte} {operands : List Byte} (h : b.Agrees op)
    (hlen : operands.length = b.operandBytes) :
    (b.apply op (operands.getD 0 0) (operands.getD 1 0)).wellFormed = true ∧
      encode (b.apply op (operands.getD 0 0) (operands.getD 1 0)) = op :: operands := by
  cases b with
  | none i | nibble f =>
    obtain rfl := List.length_eq_zero_iff.mp hlen
    exact h
  | one f | bitOne f =>
    obtain ⟨b1, rfl⟩ := List.length_eq_one_iff.mp hlen
    exact h b1
  | two f | bitTwo f =>
    obtain ⟨b1, b2, rfl⟩ := List.length_eq_two.mp hlen
    exact h b1 b2
  | word f =>
    obtain ⟨b1, b2, rfl⟩ := List.length_eq_two.mp hlen
    have hw := h (wordOf b2 b1)
    rwa [loByte_wordOf, hiByte_wordOf] at hw

/-- The format and the encoder agree at every opcode of a row. -/
def OpRow.Agrees (r : OpRow) : Prop := ∀ op : Byte, op &&& r.mask = r.pattern → r.build.Agrees op

theorem exact_agrees {p : Byte} {b : Build} (h : b.Agrees p) : (Sys2Proof.exact p b).Agrees := by
  intro op hop
  have hmask : op &&& 0xFF = op := BitVec.and_allOnes
  obtain rfl : op = p := hmask.symm.trans hop
  exact h

/-- A row with a bit number agrees if it does at the opcode of each number. -/
theorem column_agrees {p : Byte} {b : Build} (h : ∀ bit, b.Agrees (bitOpcode bit (p.setWidth 5))) :
    (column p b).Agrees := by
  intro op hop
  have hlow : op.setWidth 5 = p.setWidth 5 := by
    rw [← setWidth_and_ones5]
    exact congrArg (BitVec.setWidth 5) hop
  have hbit := h (op.extractLsb' 5 3)
  rwa [← hlow, bitOpcode_fields] at hbit

theorem bitOne_agrees {p : Byte} {f : BitVec 3 → Byte → Instr}
    (h : ∀ bit b1, (f bit b1).wellFormed = true ∧ encode (f bit b1) = [bitOpcode bit (p.setWidth 5), b1]) :
    (column p (.bitOne f)).Agrees :=
  column_agrees fun bit b1 => by rw [bitOpcode_bit]; exact h bit b1

theorem bitTwo_agrees {p : Byte} {f : BitVec 3 → Byte → Byte → Instr}
    (h : ∀ bit b1 b2,
      (f bit b1 b2).wellFormed = true ∧ encode (f bit b1 b2) = [bitOpcode bit (p.setWidth 5), b1, b2]) :
    (column p (.bitTwo f)).Agrees :=
  column_agrees fun bit b1 b2 => by rw [bitOpcode_bit]; exact h bit b1 b2

/-- The row of the table calls agrees if it does at the opcode of each number. -/
theorem tcall_agrees : ({ mask := 0x0F, pattern := 0x0A, build := .nibble .tcall } : OpRow).Agrees := by
  intro op hop
  have hlow : op.setWidth 4 = 0xA#4 := by
    rw [← setWidth_and_ones4, show op &&& 0x0F = 0x0A from hop]
    rfl
  refine ⟨rfl, ?_⟩
  rw [encode, ← hlow, nibble_fields]

/-- An opcode that two mnemonics share: the operand bytes say which one is meant (R127). -/
theorem shared_agrees {p : Byte} {plain inverted : Byte → Byte → Instr}
    (hplain : ∀ b1 b2, (plain b1 b2).wellFormed = !(Config.mbitDecode b1 b2).invert)
    (hinverted : ∀ b1 b2, (inverted b1 b2).wellFormed = (Config.mbitDecode b1 b2).invert)
    (hep : ∀ b1 b2, encode (plain b1 b2) = [p, b1, b2]) (hei : ∀ b1 b2, encode (inverted b1 b2) = [p, b1, b2]) :
    (Build.two fun b1 b2 => if (Config.mbitDecode b1 b2).invert then inverted b1 b2 else plain b1 b2).Agrees p := by
  intro b1 b2
  cases hinv : (Config.mbitDecode b1 b2).invert with
  | true => simp [hinv, hinverted, hei]
  | false => simp [hinv, hplain, hep]

/-- The families all of whose opcodes have no field of their own. -/
theorem exactRows_agree : ∀ r ∈ rowsArith ++ rowsRegMem ++ rowsWord16 ++ rowsControl, r.Agrees := by
  simp only [rowsArith, rowsRegMem, rowsWord16, rowsControl, List.forall_mem_append, List.forall_mem_cons,
    List.not_mem_nil, false_implies, implies_true, and_true]
  and_intros
  all_goals
    refine exact_agrees ?_
    simp only [Build.Agrees]
    intros
    exact ⟨rfl, rfl⟩

theorem rowsBit_agree : ∀ r ∈ rowsBit Config.mbitDecode, r.Agrees := by
  simp only [rowsBit, List.forall_mem_cons, List.not_mem_nil, false_implies, implies_true, and_true]
  and_intros
  iterate 3 exact exact_agrees (shared_agrees (fun _ _ => rfl) (fun _ _ => rfl) (fun _ _ => rfl) fun _ _ => rfl)
  · exact exact_agrees fun _ _ => ⟨rfl, rfl⟩
  · exact exact_agrees (shared_agrees (fun _ _ => rfl) (fun _ _ => rfl) (fun _ _ => rfl) fun _ _ => rfl)
  · exact exact_agrees fun _ _ => ⟨rfl, rfl⟩
  iterate 4 exact exact_agrees fun _ => ⟨rfl, rfl⟩
  iterate 2 exact bitOne_agrees fun _ _ => ⟨rfl, rfl⟩
  iterate 5 exact exact_agrees ⟨rfl, rfl⟩
  iterate 2 exact exact_agrees fun _ => ⟨rfl, rfl⟩

theorem rowsBranch_agree : ∀ r ∈ rowsBranch, r.Agrees := by
  simp only [rowsBranch, List.forall_mem_cons, tcall_agrees, List.not_mem_nil, false_implies, implies_true, and_true]
  refine ⟨bitOne_agrees fun _ _ => ⟨rfl, rfl⟩, bitTwo_agrees fun _ _ _ => ⟨rfl, rfl⟩,
    bitOne_agrees fun _ _ => ⟨rfl, rfl⟩, bitTwo_agrees fun _ _ _ => ⟨rfl, rfl⟩, ?_⟩
  and_intros
  all_goals
    refine exact_agrees ?_
    simp only [Build.Agrees]
    intros
    exact ⟨rfl, rfl⟩

theorem opcodeMap_agree : ∀ r ∈ opcodeMap Config.mbitDecode, r.Agrees := by
  have h := exactRows_agree
  simp only [opcodeMap, List.forall_mem_append] at h ⊢
  obtain ⟨⟨⟨harith, hregMem⟩, hword16⟩, hcontrol⟩ := h
  exact ⟨⟨⟨⟨⟨harith, hregMem⟩, hword16⟩, rowsBit_agree⟩, rowsBranch_agree⟩, hcontrol⟩

/-! ## Every opcode is in the map -/

/-- The rows that an opcode with the given low four bits can fall in. -/
def rowsAt (low : BitVec 4) : List OpRow :=
  (opcodeMap Config.mbitDecode).filter fun r => r.pattern.setWidth 4 == low &&& r.mask.setWidth 4

theorem rowsAt_cover : ∀ low high : BitVec 4,
    (rowsAt low).any (fun r => (high ++ low : Byte) &&& r.mask == r.pattern) = true := by decide

/-- Every opcode falls in a row of the map, the one the decoder takes (R129). -/
theorem buildOf_row (op : Byte) :
    ∃ r ∈ opcodeMap Config.mbitDecode, op &&& r.mask = r.pattern ∧ buildOf op = r.build := by
  obtain ⟨q, hq, hqop⟩ := List.any_eq_true.mp (rowsAt_cover (op.setWidth 4) (op.extractLsb' 4 4))
  rw [nibble_fields] at hqop
  have hsome : ((opcodeMap Config.mbitDecode).find? fun r => op &&& r.mask == r.pattern).isSome = true :=
    List.find?_isSome.mpr ⟨q, List.mem_of_mem_filter hq, hqop⟩
  obtain ⟨r, hr⟩ := Option.isSome_iff_exists.mp hsome
  exact ⟨r, List.mem_of_find?_eq_some hr, by simpa using List.find?_some hr, by simp [buildOf, buildIn, hr]⟩

theorem buildOf_agrees (op : Byte) : (buildOf op).Agrees op := by
  obtain ⟨r, hr, hop, hbuild⟩ := buildOf_row op
  rw [hbuild]
  exact opcodeMap_agree r hr op hop

/-! ## Decoding -/

/-- A format reads its operand bytes and no byte after them. -/
theorem Build.apply_append {b : Build} {operands : List Byte} (hlen : operands.length = b.operandBytes) (op : Byte)
    (rest : List Byte) : b.apply op ((operands ++ rest).getD 0 0) ((operands ++ rest).getD 1 0) =
      b.apply op (operands.getD 0 0) (operands.getD 1 0) := by
  cases b with
  | none i | nibble f => rfl
  | one f | bitOne f =>
    obtain ⟨b1, rfl⟩ := List.length_eq_one_iff.mp hlen
    rfl
  | two f | word f | bitTwo f =>
    obtain ⟨b1, b2, rfl⟩ := List.length_eq_two.mp hlen
    rfl

/-- What the decoder reads from an opcode and the bytes after it. -/
theorem decode_cons (op : Byte) (tail : List Byte) : decode (op :: tail) =
    if tail.length < (buildOf op).operandBytes then .error (.missingOperand op)
    else .ok ((buildOf op).apply op (tail.getD 0 0) (tail.getD 1 0), tail.drop (buildOf op).operandBytes) := rfl

/-- An opcode and as many operand bytes as its row takes decode to what the row makes of them. -/
theorem decode_append {op : Byte} {operands : List Byte} (hlen : operands.length = (buildOf op).operandBytes)
    (rest : List Byte) : decode (op :: operands ++ rest) =
      .ok ((buildOf op).apply op (operands.getD 0 0) (operands.getD 1 0), rest) := by
  have henough : ¬ (operands ++ rest).length < (buildOf op).operandBytes := by simp [← hlen]
  rw [List.cons_append, decode_cons, if_neg henough, Build.apply_append hlen, ← hlen, List.drop_left]

/-- Bytes that decode are an opcode, as many operand bytes as its row takes, and the bytes left over. -/
theorem decode_ok {bytes rest : List Byte} {i : Instr} (h : decode bytes = .ok (i, rest)) :
    ∃ op operands, bytes = op :: operands ++ rest ∧ operands.length = (buildOf op).operandBytes ∧
      (buildOf op).apply op (operands.getD 0 0) (operands.getD 1 0) = i := by
  cases bytes with
  | nil => cases h
  | cons op tail =>
    by_cases hfew : tail.length < (buildOf op).operandBytes
    · rw [decode_cons, if_pos hfew] at h
      cases h
    · have hlen : (tail.take (buildOf op).operandBytes).length = (buildOf op).operandBytes := by
        simpa using Nat.le_of_not_lt hfew
      have htail : op :: tail = op :: tail.take (buildOf op).operandBytes ++ tail.drop (buildOf op).operandBytes := by
        simp
      rw [htail, decode_append hlen] at h
      cases h
      exact ⟨op, _, htail, hlen, rfl⟩

/-- Settles O2: the row that the decoder takes agrees with the encoder. -/
theorem encodeOfDecode : Obligations.EncodeOfDecode := by
  intro bytes rest i h
  obtain ⟨op, operands, rfl, hlen, rfl⟩ := decode_ok h
  obtain ⟨hwf, henc⟩ := (buildOf_agrees op).encode_apply hlen
  exact ⟨hwf, by rw [henc]⟩

/-! The rows with a field in the opcode, at every value of the field (R118 to R120). -/

theorem buildOf_set1 (bit : BitVec 3) : buildOf (bitOpcode bit 0x01) = .bitOne .set1 := by
  obtain ⟨k⟩ := bit
  fin_cases k <;> rfl

theorem buildOf_clr1 (bit : BitVec 3) : buildOf (bitOpcode bit 0x11) = .bitOne .clr1 := by
  obtain ⟨k⟩ := bit
  fin_cases k <;> rfl

theorem buildOf_bbcA (bit : BitVec 3) : buildOf (bitOpcode bit 0x12) = .bitOne .bbcA := by
  obtain ⟨k⟩ := bit
  fin_cases k <;> rfl

theorem buildOf_bbcDp (bit : BitVec 3) : buildOf (bitOpcode bit 0x13) = .bitTwo .bbcDp := by
  obtain ⟨k⟩ := bit
  fin_cases k <;> rfl

theorem buildOf_bbsA (bit : BitVec 3) : buildOf (bitOpcode bit 0x02) = .bitOne .bbsA := by
  obtain ⟨k⟩ := bit
  fin_cases k <;> rfl

theorem buildOf_bbsDp (bit : BitVec 3) : buildOf (bitOpcode bit 0x03) = .bitTwo .bbsDp := by
  obtain ⟨k⟩ := bit
  fin_cases k <;> rfl

theorem buildOf_tcall (n : BitVec 4) : buildOf (n ++ 0xA#4) = .nibble .tcall := by
  obtain ⟨k⟩ := n
  fin_cases k <;> rfl

theorem tcall_number (n : BitVec 4) : (n ++ 0xA#4).extractLsb' 4 4 = n := by
  revert n
  decide

/-- An instruction is read back if the row of its opcode makes it of its operand bytes. -/
theorem decode_encode_of {i : Instr} (rest : List Byte) (h : ∃ op operands b, encode i = op :: operands ∧
      buildOf op = b ∧ operands.length = b.operandBytes ∧ b.apply op (operands.getD 0 0) (operands.getD 1 0) = i) :
    decode (encode i ++ rest) = .ok (i, rest) := by
  obtain ⟨op, operands, b, henc, rfl, hlen, happ⟩ := h
  rw [henc, decode_append hlen, happ]

/-- Settles O1, instruction by instruction: the row of the opcode makes the instruction of its operand bytes. -/
theorem decodeOfEncode : Obligations.DecodeOfEncode := by
  intro i rest hwf
  cases i
  case adcAbs | adcAbsY | sbcAbs | sbcAbsY | cmpAbs | cmpAbsY | orAbs | orAbsY | andAbs | andAbsY | eorAbs | eorAbsY |
      ldaAbs | ldaAbsY | staAbs | staAbsY | aslAbs | rolAbs | lsrAbs | rorAbs | incAbs | decAbs | cmpxAbs | cmpyAbs |
      ldxAbs | ldyAbs | stxAbs | styAbs | bitAbs | tclr1Abs | tset1Abs | callAbs | jmpAbs | jmpIndAbs =>
    exact decode_encode_of rest ⟨_, _, _, rfl, rfl, rfl, congrArg _ (wordOf_bytes _)⟩
  case and1 b1 b2 | eor1 b1 b2 | ldc b1 b2 | or1 b1 b2 =>
    have hinv : ¬ (Config.mbitDecode b1 b2).invert = true := by simpa [Instr.wellFormed, Instr.wellFormedIn] using hwf
    exact decode_encode_of rest ⟨_, [b1, b2], _, rfl, rfl, rfl, if_neg hinv⟩
  case and1b b1 b2 | eor1b b1 b2 | ldcb b1 b2 | or1b b1 b2 =>
    have hinv : (Config.mbitDecode b1 b2).invert = true := hwf
    exact decode_encode_of rest ⟨_, [b1, b2], _, rfl, rfl, rfl, if_pos hinv⟩
  case set1 bit dp =>
    exact decode_encode_of rest ⟨_, [dp], _, rfl, buildOf_set1 bit, rfl,
      congrArg (Instr.set1 · dp) (bitOpcode_bit _ _)⟩
  case clr1 bit dp =>
    exact decode_encode_of rest ⟨_, [dp], _, rfl, buildOf_clr1 bit, rfl,
      congrArg (Instr.clr1 · dp) (bitOpcode_bit _ _)⟩
  case bbcA bit rel =>
    exact decode_encode_of rest ⟨_, [rel], _, rfl, buildOf_bbcA bit, rfl,
      congrArg (Instr.bbcA · rel) (bitOpcode_bit _ _)⟩
  case bbcDp bit dp rel =>
    exact decode_encode_of rest ⟨_, [dp, rel], _, rfl, buildOf_bbcDp bit, rfl,
      congrArg (Instr.bbcDp · dp rel) (bitOpcode_bit _ _)⟩
  case bbsA bit rel =>
    exact decode_encode_of rest ⟨_, [rel], _, rfl, buildOf_bbsA bit, rfl,
      congrArg (Instr.bbsA · rel) (bitOpcode_bit _ _)⟩
  case bbsDp bit dp rel =>
    exact decode_encode_of rest ⟨_, [dp, rel], _, rfl, buildOf_bbsDp bit, rfl,
      congrArg (Instr.bbsDp · dp rel) (bitOpcode_bit _ _)⟩
  case tcall n =>
    exact decode_encode_of rest ⟨_, [], _, rfl, buildOf_tcall n, rfl, congrArg Instr.tcall (tcall_number n)⟩
  all_goals exact decode_encode_of rest ⟨_, _, _, rfl, rfl, rfl, rfl⟩

/-- Settles O3: each byte string is the encoding of the instruction beside it. -/
theorem manualExamplesDecode : Obligations.ManualExamplesDecode :=
  ⟨decodeOfEncode (.adcImm 0x35) [] rfl, decodeOfEncode (.adcAbs 0xF035) [] rfl,
    decodeOfEncode (.ldm 0x35 0x55) [] rfl, decodeOfEncode (.ldaDp 0x35) [] rfl,
    decodeOfEncode (.incAbs 0x0035) [] rfl, decodeOfEncode .ldaAtX [] rfl, decodeOfEncode .ldaAtXInc [] rfl,
    decodeOfEncode (.ldaDpX 0x45) [] rfl, decodeOfEncode (.ldaAbsY 0xFA00) [] rfl,
    decodeOfEncode (.jmpIndDp 0x35) [] rfl, decodeOfEncode (.adcIndX 0x25) [] rfl,
    decodeOfEncode (.adcIndY 0x25) [] rfl, decodeOfEncode (.jmpIndAbs 0xF025) [] rfl,
    decodeOfEncode (.pcall 0x35) [] rfl, decodeOfEncode (.tcall 4) [] rfl⟩

end Sys2Proof
end

section
/-! ADC and SBC (spec/40_arith_logic.md R144, R164): the instructions that make a new A and PSW of A, PSW and a source
operand. -/

namespace Sys2Proof.Machine

section Accumulate

variable {src : Source} {s s1 : State} {m : Byte}

/-- An accumulator operation whose operand is read changes A and PSW only. -/
theorem accumulate_answers (f : Byte → Byte → Byte → Byte × Byte) (h : readSource src s = .ok m s1) :
    ∃ t, accumulate f src s = .next t ∧
      onlyCpu { s.cpu with a := (f s.a m s.psw).1, psw := (f s.a m s.psw).2 } s t := by
  obtain ⟨k, rfl⟩ := readSource_ok h
  exact ⟨_, by rw [accumulate, h]; rfl, onlyCpu_intro _ s k⟩

theorem accumulate_faults (f : Byte → Byte → Byte → Byte × Byte) {e : Fault} (h : readSource src s = .fault e) :
    accumulate f src s = .fault e := by
  rw [accumulate, h]
  rfl

end Accumulate

/-- The flags of an 8-bit sum or difference. -/
theorem writeSum8_flags (x : Sum 8) (p : Byte) :
    flag .n (writeSum8 x p) = x.r.msb ∧ flag .z (writeSum8 x p) = decide (x.r = 0) ∧ flag .c (writeSum8 x p) = x.c ∧
      flag .h (writeSum8 x p) = x.h ∧ flag .v (writeSum8 x p) = x.v := by
  simp [writeSum8, beq_eq_decide]

/-- C of R142 is 1 where there is no borrow. -/
theorem sub8_c (a m : Byte) (c : Bool) : (sub8 a m c).c = decide (m.toNat + (!c).toNat ≤ a.toNat) := by
  cases c with
  | false => simp [sub8]; omega
  | true => simp [sub8]

/-- H of R142 is 1 where there is no borrow from bit 4. -/
theorem sub8_h (a m : Byte) (c : Bool) : (sub8 a m c).h = decide (m.toNat % 16 + (!c).toNat ≤ a.toNat % 16) := by
  cases c <;> (simp [sub8]; omega)

/-- Settles O14: the sum of R143 and its flags. -/
theorem addWithCarry : Obligations.AddWithCarry := by
  intro i src s hi
  rw [exec_source s hi]
  refine ⟨fun m s1 h => ?_, fun e h => accumulate_faults adcByte h⟩
  obtain ⟨t, hexec, honly⟩ := accumulate_answers adcByte h
  obtain ⟨hn, hz, hc, hh, hv⟩ := writeSum8_flags (add8 s.a m (flag .c s.psw)) s.psw
  simp only [adcByte, add8_r] at honly
  rw [add8_r] at hn hz
  rw [add8_v] at hv
  exact ⟨_, t, hexec, honly, hn, hz, hc, hh, hv, flagsKept_writeSum8 _ _⟩

/-- Settles O15: the difference of R142 and its flags. -/
theorem subtractWithCarry : Obligations.SubtractWithCarry := by
  intro i src s hi
  rw [exec_source s hi]
  refine ⟨fun m s1 h => ?_, fun e h => accumulate_faults sbcByte h⟩
  obtain ⟨t, hexec, honly⟩ := accumulate_answers sbcByte h
  obtain ⟨hn, hz, hc, hh, hv⟩ := writeSum8_flags (sub8 s.a m (flag .c s.psw)) s.psw
  simp only [sbcByte, sub8_r] at honly
  rw [sub8_r] at hn hz
  rw [sub8_c] at hc
  rw [sub8_h] at hh
  rw [sub8_v] at hv
  exact ⟨_, t, hexec, honly, hn, hz, hc, hh, hv, flagsKept_writeSum8 _ _⟩

end Sys2Proof.Machine
end

section
/-! Operand addresses and the accesses built on them: auto-increment, XMA and the bit instructions on memory
(spec/30_encoding.md R104 to R123, spec/41_reg_mem.md, spec/43_bit.md). -/

namespace Sys2Proof.Machine

/-- Two reads in page 0 make a pair, low byte first. -/
theorem readPair_of_reads {d lo hi : Byte} {s s1 s2 : State} (hg : flag .g s.psw = false)
    (hlo : memRead (zext16 d) s = .ok lo s1) (hhi : memRead (zext16 (d + 1)) s1 = .ok hi s2) :
    readPair d s = .ok (wordOf hi lo) s2 := by
  obtain ⟨-, k, rfl⟩ := memRead_ok hlo
  have hg1 : flag .g (s.spend k).psw = false := hg
  simp only [readPair, directPage_clear hg, directPage_clear hg1, hlo, hhi, Res.bind_ok]

/-- Settles O12: the direct page while G = 0, and the reads of a pointer. -/
theorem operandAddresses : Obligations.OperandAddresses := by
  intro s d w hg
  refine ⟨directPage_clear hg, directPage_clear hg, directPage_clear hg, directPage_clear hg, rfl, rfl,
    fun lo hi s1 s2 hlo hhi => readPair_of_reads hg hlo hhi, fun lo hi s1 s2 hlo hhi => ?_, rfl,
    fun o ea s1 h => by simp [readSource, h]⟩
  have hpair := readPair_of_reads hg hlo hhi
  obtain ⟨k, rfl⟩ := readPair_ok hpair
  simp only [effectiveAddress, hpair, Res.bind_ok]
  rfl

/-- A read at X in page 0 while G = 0 is the operand of the X-indirect form. -/
theorem readSource_atX {s : State} (hg : flag .g s.psw = false) :
    readSource (.mem .atX) s = memRead (zext16 s.x) s := by
  simp [readSource, effectiveAddress, directPage_clear hg]

/-- `STA {X}+` while G = 0: a write at X, then X counted up. -/
theorem exec_staAtXInc {s : State} (hg : flag .g s.psw = false) :
    exec .staAtXInc s = (memWrite (zext16 s.x) s.a s).done fun _ s1 => { s1 with x := s.x + 1 } := by
  simp [exec, execStaAtXInc, effectiveAddress, directPage_clear hg]

/-- `LDA {X}+` while G = 0: a read at X, then A, X and PSW. -/
theorem exec_ldaAtXInc {s : State} (hg : flag .g s.psw = false) :
    exec .ldaAtXInc s = (memRead (zext16 s.x) s).done
      fun m s1 => { s1 with a := m, x := s.x + 1, psw := setNZ8 m s.psw } := by
  simp [exec, execLdaAtXInc, readSource_atX hg]

/-- A memory write that answers stored one byte. -/
theorem memWrite_storedOnly {a : Word} {v : Byte} {s t : State} {u : Unit} (h : memWrite a v s = .ok u t) :
    storedOnly a v s.cpu s t := by
  obtain ⟨-, hcpu, hmode, -, hset, hmem, hram⟩ := memWrite_ok h
  exact ⟨hcpu, hmode, hset, hmem, fun hr => ⟨(hram hr).1, fun _ => (hram hr).2⟩⟩

/-- CPU registers changed after the store of a byte. -/
theorem storedOnly_withCpu {ea : Word} {r : Byte} {s t : State} (h : storedOnly ea r s.cpu s t) (f : Cpu → Cpu) :
    storedOnly ea r (f s.cpu) s (t.withCpu (f t.cpu)) := by
  obtain ⟨hcpu, hmode, hset, hmem, hram⟩ := h
  exact ⟨congrArg f hcpu, hmode, hset, hmem, hram⟩

/-- Settles O27: one access at X, then X counted up. -/
theorem autoIncrement : Obligations.AutoIncrement := by
  intro s hg
  rw [exec_ldaAtXInc hg, exec_staAtXInc hg]
  refine ⟨fun m s1 h => ?_, fun hr => ?_, fun hw => ?_, fun hw => ?_⟩
  · obtain ⟨-, k, rfl⟩ := memRead_ok h
    exact ⟨_, _, by rw [h]; rfl, onlyCpu_intro _ s k, nzOnly_setNZ8 m s.psw⟩
  · obtain ⟨e, he⟩ := memRead_faults hr
    exact ⟨e, by rw [he]; rfl⟩
  · obtain ⟨s1, h⟩ := memWrite_answers (v := s.a) hw
    exact ⟨s1, _, by rw [h]; rfl, h, rfl,
      storedOnly_withCpu (memWrite_storedOnly h) fun c => { c with x := s.x + 1 }⟩
  · obtain ⟨e, he⟩ := memWrite_faults (v := s.a) hw
    exact ⟨e, by rw [he]; rfl⟩

/-! ## Read-modify-writes of a byte -/

section Rmw

variable {o : Operand} {s s1 : State} {ea : Word}

theorem exchangeA_answers (he : effectiveAddress o s = .ok ea s1) (hm : modifiable s.device ea = true) :
    ∃ v s2, rewrites ea v s.a s1 s2 ∧ exchangeA o s = .next { s2 with a := v, psw := setNZ8 v s.psw } ∧
      storedOnly ea s.a s.cpu s s2 := by
  obtain ⟨k, rfl⟩ := effectiveAddress_ok he
  obtain ⟨v, t, h, hrw⟩ := rmwByte_answers (a := ea) (fun _ => s.a) (s := s.spend k) hm
  exact ⟨v, t, hrw, by simp [exchangeA, he, h], rewrites_stored hrw⟩

theorem exchangeA_faults (he : effectiveAddress o s = .ok ea s1) (hm : modifiable s.device ea = false) :
    ∃ e, exchangeA o s = .fault e := by
  obtain ⟨k, rfl⟩ := effectiveAddress_ok he
  obtain ⟨e, h⟩ := rmwByte_faults (a := ea) (fun _ => s.a) (s := s.spend k) hm
  exact ⟨e, by simp [exchangeA, he, h]⟩

/-- A read-modify-write of a byte that may not be modified faults. -/
theorem rmw_faults (op : RmwOp) (he : effectiveAddress o s = .ok ea s1) (hm : modifiable s.device ea = false) :
    ∃ e, op.meaning o s = .fault e := by
  cases op with
  | xma => exact exchangeA_faults he hm
  | _ => exact modify_faults _ he hm

/-- A read-modify-write whose address cannot be formed ends in the fault of the address. -/
theorem rmw_address_faults (op : RmwOp) {e : Fault} (he : effectiveAddress o s = .fault e) :
    op.meaning o s = .fault e := by
  cases op <;> simp [RmwOp.meaning, modify, exchangeA, he]

/-- A read-modify-write that leaves PSW alone answers with the state after the write. -/
theorem modify_keeping_psw (f : Byte → Byte → Byte) (he : effectiveAddress o s = .ok ea s1)
    (hm : modifiable s.device ea = true) :
    ∃ v t, rewrites ea v (f v s.psw) s1 t ∧ modify (fun v psw => (f v psw, psw)) o s = .next t ∧
      storedOnly ea (f v s.psw) s.cpu s t := by
  obtain ⟨v, t, hrw, hexec, hstored⟩ := modify_answers (fun v psw => (f v psw, psw)) he hm
  have hpsw : t.withPsw s.psw = t := by
    rw [show s.psw = t.psw from (congrArg Cpu.psw hstored.1).symm]
    rfl
  exact ⟨v, t, hrw, hexec.trans (congrArg _ hpsw), hstored⟩

end Rmw

/-- Settles O28: a read-modify-write that writes A and loads A with the byte read. -/
theorem exchangeWithMemory : Obligations.ExchangeWithMemory := by
  intro i o s hi
  rw [exec_rmw s hi]
  refine ⟨fun ea s1 he hm => ?_, fun ea s1 => rmw_faults .xma, fun e => rmw_address_faults .xma⟩
  obtain ⟨v, s2, hrw, hexec, hstored⟩ := exchangeA_answers he hm
  exact ⟨v, setNZ8 v s.psw, s2, hrw, hexec, nzOnly_setNZ8 v s.psw,
    storedOnly_withCpu hstored fun c => { c with a := v, psw := setNZ8 v s.psw }⟩

/-- A byte with one bit given a value. -/
theorem assign_getLsbD (v : Byte) (b : BitVec 3) (x : Bool) (j : Nat) (hj : j < 8) :
    (if x then v ||| bitMask b else v &&& ~~~bitMask b).getLsbD j = if j = b.toNat then x else v.getLsbD j := by
  cases x
  · exact clear_getLsbD v b j hj
  · exact set_getLsbD v b j hj

/-- Settles O32, instruction by instruction: what each makes of the addressed bit. -/
theorem bitsOfMemory : Obligations.BitsOfMemory := by
  intro i op o s hi hbit
  rw [exec_rmw s hi]
  refine ⟨fun ea s1 he hm => ?_, fun ea s1 => rmw_faults op, fun e => rmw_address_faults op⟩
  cases op with
  | set1 b =>
    obtain ⟨v, t, hrw, hexec, hstored⟩ := modify_keeping_psw (fun v _ => v ||| bitMask b) he hm
    exact ⟨v, _, b, true, t, rfl, hrw, hexec, set_getLsbD v b, hstored⟩
  | clr1 b =>
    obtain ⟨v, t, hrw, hexec, hstored⟩ := modify_keeping_psw (fun v _ => v &&& ~~~bitMask b) he hm
    exact ⟨v, _, b, false, t, rfl, hrw, hexec, clear_getLsbD v b, hstored⟩
  | not1 b =>
    obtain ⟨v, t, hrw, hexec, hstored⟩ := modify_keeping_psw (fun v _ => v ^^^ bitMask b) he hm
    exact ⟨v, _, b, _, t, rfl, hrw, hexec, complement_getLsbD v b, hstored⟩
  | stc b =>
    obtain ⟨v, t, hrw, hexec, hstored⟩ :=
      modify_keeping_psw (fun v psw => if flag .c psw then v ||| bitMask b else v &&& ~~~bitMask b) he hm
    exact ⟨v, _, b, _, t, rfl, hrw, hexec, assign_getLsbD v b _, hstored⟩
  | _ => cases hbit

end Sys2Proof.Machine
end

section
/-! Jumps, and the call through a pointer (spec/44_branch.md R285, R288). -/

namespace Sys2Proof.Machine

/-- `JMP [!abs]` faults where one of the two bytes of its target cannot be read. -/
theorem jmpIndAbs_faults {a : Word} {s : State}
    (h : readable s.device a = false ∨ readable s.device (a + 1) = false) : ∃ e, exec (.jmpIndAbs a) s = .fault e := by
  simp only [exec, execJmpIndAbs]
  cases hlo : memRead a s with
  | fault e => exact ⟨e, rfl⟩
  | ok lo s1 =>
    obtain ⟨hread, k, rfl⟩ := memRead_ok hlo
    obtain ⟨e, he⟩ := memRead_faults (s := s.spend k) (h.resolve_left (by simp [hread]))
    exact ⟨e, by rw [Res.bind_ok, he]; rfl⟩

/-- Settles O41: PC takes the operand, or the pair of bytes the operand points to. -/
theorem jumps : Obligations.Jumps := by
  refine fun s => ⟨fun _ => rfl, fun a lo hi s1 s2 hlo hhi => ?_, fun a => jmpIndAbs_faults,
    fun d target s1 h => ?_, fun d e h => ?_⟩
  · obtain ⟨-, j, rfl⟩ := memRead_ok hlo
    obtain ⟨-, k, rfl⟩ := memRead_ok hhi
    have hexec : exec (.jmpIndAbs a) s = .next (((s.spend j).spend k).withPc (hi ++ lo)) := by
      simp only [exec, execJmpIndAbs, hlo, hhi, Res.bind_ok]
      rfl
    exact ⟨_, hexec, onlyCpu_of (State.spend_spend s j k) rfl⟩
  · obtain ⟨k, rfl⟩ := readPair_ok h
    exact ⟨_, by rw [exec, execJmpIndDp, h]; rfl, onlyCpu_intro _ s k⟩
  · rw [exec, execJmpIndDp, h]
    rfl

/-- Settles O40: the pushes leave G and every register but SP alone, so the pointer can be read after them. -/
theorem callReachesPointer : Obligations.CallReachesPointer := by
  intro d s hg hstack hlo hhi
  obtain ⟨t, hpush, -, hcpu, hmode, hset, hmem, -, hper⟩ :=
    pushAll_pushable (bytes := [hiByte s.pc, loByte s.pc]) (by simp) (pushable_of_inRam hstack)
  have hgt : flag .g t.psw = false := (congrArg (fun c : Cpu => flag .g c.psw) hcpu).trans hg
  have hpair := readPair_of_reads hgt (memRead_ram hlo) (memRead_ram hhi)
  have hexec : exec (.callIndDp d) s =
      .next (t.withPc (wordOf (t.ramByte (zext16 (d + 1))) (t.ramByte (zext16 d)))) := by
    simp only [exec, execCallIndDp, pushPc_eq, hpush, hpair, Res.bind_ok]
    rfl
  refine ⟨_, hexec, ?_, fun a ha => hmem a ?_, hper hstack⟩
  · exact congrArg (fun c : Cpu => { c with pc := wordOf (t.ramByte (zext16 (d + 1))) (t.ramByte (zext16 d)) }) hcpu
  · rintro ⟨k, hk, rfl⟩
    have hk01 : k = 0 ∨ k = 1 := by simp at hk; omega
    exact ha (hk01.imp (congrArg (stackByte s)) (congrArg (stackByte s)))

end Sys2Proof.Machine
end

section
/-! Logical operations, comparisons, tests, shifts, counts and register operations (spec/40_arith_logic.md R145 to R166,
spec/41_reg_mem.md R189 to R198, spec/43_bit.md R235). -/

namespace Sys2Proof.Machine

/-! ## Logical operations -/

/-- An eight-mode instruction has the opcode base + offset (R140). -/
theorem encode_sourceForm {i : Instr} {op : SourceOp} {src : Source} {base : Byte} (hi : sourceForm i = some (op, src))
    (hb : op.base = some base) :
    ∃ offset, modeOffset src = some offset ∧ (encode i).head? = some (base + offset) := by
  cases i <;> first
    | (cases hi; done)
    | (cases hi; cases hb; done)
    | (cases hi; cases hb; exact ⟨_, rfl, rfl⟩)

/-- AND, OR and EOR are `accumulate` of their function of A and M, with N and Z from the result (R145, R156, R161). -/
theorem logical_meaning {op : SourceOp} (h : op = .and ∨ op = .or ∨ op = .eor) :
    ∃ (base : Byte) (g : Byte → Byte → Byte), op.base = some base ∧ (∀ a m, op.logic a m = some (g a m)) ∧
      ∀ src s, op.meaning src s = accumulate (fun a m psw => (g a m, setNZ8 (g a m) psw)) src s := by
  rcases h with rfl | rfl | rfl
  · exact ⟨_, (· &&& ·), rfl, fun _ _ => rfl, fun _ _ => rfl⟩
  · exact ⟨_, (· ||| ·), rfl, fun _ _ => rfl, fun _ _ => rfl⟩
  · exact ⟨_, (· ^^^ ·), rfl, fun _ _ => rfl, fun _ _ => rfl⟩

/-- Settles O16: the opcodes of R140, and one function of A and M for each operation. -/
theorem logicalOperations : Obligations.LogicalOperations := by
  intro i op src s hi hop
  obtain ⟨base, g, hbase, hlogic, hmeaning⟩ := logical_meaning hop
  obtain ⟨offset, hoffset, hhead⟩ := encode_sourceForm hi hbase
  rw [exec_source s hi, hmeaning]
  refine ⟨⟨base, offset, hbase, hoffset, hhead⟩, fun m s1 h => ?_, fun e h => accumulate_faults _ h⟩
  obtain ⟨t, hexec, honly⟩ := accumulate_answers (fun a m psw => (g a m, setNZ8 (g a m) psw)) h
  exact ⟨g s.a m, _, t, hlogic s.a m, hexec, honly, nzOnly_setNZ8 _ _⟩

/-! ## Comparisons and tests -/

section TestSource

variable {src : Source} {s s1 : State} {m : Byte}

/-- A test of an operand that is read changes PSW only. -/
theorem testSource_answers (f : Byte → Byte → Byte) (h : readSource src s = .ok m s1) :
    ∃ t, testSource f src s = .next t ∧ onlyCpu { s.cpu with psw := f m s.psw } s t := by
  obtain ⟨k, rfl⟩ := readSource_ok h
  exact ⟨_, by rw [testSource, h]; rfl, onlyCpu_intro _ s k⟩

theorem testSource_faults (f : Byte → Byte → Byte) {e : Fault} (h : readSource src s = .fault e) :
    testSource f src s = .fault e := by
  rw [testSource, h]
  rfl

end TestSource

/-- A comparison is a test by `compare8` of its register. -/
theorem compared_meaning {op : SourceOp} {s : State} {r : Byte} (h : op.compared s = some r) (src : Source) :
    op.meaning src s = testSource (compare8 r) src s := by
  cases op with
  | cmp | cmpx | cmpy => cases h; rfl
  | _ => cases h

/-- Settles O18: the flags of `compare8`. -/
theorem comparisons : Obligations.Comparisons := by
  intro i op src s r hi hr
  rw [exec_source s hi, compared_meaning hr]
  refine ⟨fun m s1 h => ?_, fun e h => testSource_faults _ h⟩
  obtain ⟨t, hexec, honly⟩ := testSource_answers (compare8 r) h
  exact ⟨_, t, hexec, honly, compare8_flags r m s.psw⟩

/-- The flags of BIT (R235). -/
theorem bitTest_flags (a m p : Byte) :
    flag .n (bitTest a m p) = m.getLsbD 7 ∧ flag .v (bitTest a m p) = m.getLsbD 6 ∧
      flag .z (bitTest a m p) = decide (a &&& m = 0) ∧ flagsKept [.n, .v, .z] p (bitTest a m p) :=
  ⟨by simp [bitTest, testBit], by simp [bitTest, testBit], by simp [bitTest, beq_eq_decide], flagsKept_bitTest a m p⟩

/-- Settles O19: N and Z of the byte for TST, the flags of `bitTest` for BIT. -/
theorem memoryTests : Obligations.MemoryTests := by
  intro i op src s hi hop
  rw [exec_source s hi]
  rcases hop with rfl | rfl
  · refine ⟨fun m s1 h => ?_, fun e h => testSource_faults setNZ8 h⟩
    obtain ⟨t, hexec, honly⟩ := testSource_answers setNZ8 h
    exact ⟨_, t, hexec, honly, fun _ => nzOnly_setNZ8 m s.psw, nofun⟩
  · refine ⟨fun m s1 h => ?_, fun e h => testSource_faults (bitTest s.a) h⟩
    obtain ⟨t, hexec, honly⟩ := testSource_answers (bitTest s.a) h
    exact ⟨_, t, hexec, honly, nofun, fun _ => bitTest_flags s.a m s.psw⟩

/-! ## Shifts, rotations, INC, DEC and COM -/

/-- The byte an operation on a byte writes and the PSW after it, from A, the byte read and PSW. -/
def RmwOp.onByte : RmwOp → Byte → Byte → Byte → Byte × Byte
  | .asl, _ => aslByte
  | .rol, _ => rolByte
  | .lsr, _ => lsrByte
  | .ror, _ => rorByte
  | .inc, _ => incByte
  | .dec, _ => decByte
  | .com, _ => comByte
  | .tclr1, a => tclrByte a
  | .tset1, a => tsetByte a
  | .xma, a => fun v psw => (a, setNZ8 v psw)
  | .set1 b, _ => fun v psw => (v ||| bitMask b, psw)
  | .clr1 b, _ => fun v psw => (v &&& ~~~bitMask b, psw)
  | .not1 b, _ => fun v psw => (v ^^^ bitMask b, psw)
  | .stc b, _ => fun v psw => (if flag .c psw then v ||| bitMask b else v &&& ~~~bitMask b, psw)

section OnByte

variable {op : RmwOp} {i : Instr} {o : Operand} {s s1 : State} {ea : Word}

/-- Every operation but XMA, which loads A, is `modify` of its byte function. -/
theorem RmwOp.meaning_eq_modify (hop : op ≠ .xma) (o : Operand) (s : State) :
    op.meaning o s = modify (op.onByte s.a) o s := by
  cases op with
  | xma => exact absurd rfl hop
  | _ => rfl

/-- An accumulator form makes the byte function's result of A. -/
theorem exec_accumulator (s : State) (h : accumulatorForm i = some op) :
    exec i s = .next { s with a := (op.onByte s.a s.a s.psw).1, psw := (op.onByte s.a s.a s.psw).2 } := by
  cases i <;> first | (cases h; done) | (cases h; rfl)

/-- A read-modify-write other than XMA changes the byte and PSW. -/
theorem rmw_answers (hop : op ≠ .xma) (he : effectiveAddress o s = .ok ea s1) (hm : modifiable s.device ea = true) :
    ∃ v s2, rewrites ea v (op.onByte s.a v s.psw).1 s1 s2 ∧
      op.meaning o s = .next (s2.withPsw (op.onByte s.a v s.psw).2) ∧
      storedOnly ea (op.onByte s.a v s.psw).1 { s.cpu with psw := (op.onByte s.a v s.psw).2 } s
        (s2.withPsw (op.onByte s.a v s.psw).2) := by
  obtain ⟨v, s2, hrw, hexec, hstored⟩ := modify_answers (op.onByte s.a) he hm
  exact ⟨v, s2, hrw, (RmwOp.meaning_eq_modify hop o s).trans hexec, storedOnly_withPsw hstored _⟩

/-- The shifts and rotations in numbers, with N, Z and C (R146, R159, R162, R163). -/
theorem RmwOp.onByte_shift {v p : Byte} {r : Nat} {c : Bool} (h : op.shift v (flag .c p) = some (r, c)) (a : Byte) :
    op.onByte a v p = (BitVec.ofNat 8 r, setNZ8 (BitVec.ofNat 8 r) (setFlag .c c p)) := by
  cases op with
  | asl => cases h; exact aslByte_eq v p
  | rol => cases h; exact rolByte_eq v p
  | lsr => cases h; exact lsrByte_eq v p
  | ror => cases h; exact rorByte_eq v p
  | _ => cases h

/-- INC, DEC and COM with N and Z (R150, R153, R157). -/
theorem RmwOp.onByte_count {v r : Byte} (h : op.count v = some r) (a p : Byte) :
    op.onByte a v p = (r, setNZ8 r p) := by
  cases op with
  | inc | dec => cases h; rfl
  | com =>
    have hnot : ~~~v = 0xFF - v := (BitVec.allOnes_sub_eq_not v).symm
    cases h
    simp only [onByte, comByte, hnot]
  | _ => cases h

theorem RmwOp.shift_answers (h : op = .asl ∨ op = .lsr ∨ op = .rol ∨ op = .ror) (v : Byte) (c : Bool) :
    ∃ r c', op.shift v c = some (r, c') := by
  rcases h with rfl | rfl | rfl | rfl <;> exact ⟨_, _, rfl⟩

theorem RmwOp.count_answers (h : op = .inc ∨ op = .dec ∨ op = .com) (v : Byte) : ∃ r, op.count v = some r := by
  rcases h with rfl | rfl | rfl <;> exact ⟨_, rfl⟩

/-- The memory forms of the shifts, INC and DEC have the opcode base + offset (R141). -/
theorem encode_rmwForm {base : Byte} (hi : rmwForm i = some (op, o)) (hb : op.base = some base) :
    ∃ offset, rmwOffset o = some offset ∧ (encode i).head? = some (base + offset) := by
  cases i <;> first
    | (cases hi; done)
    | (cases hi; cases hb; done)
    | (cases hi; cases hb; exact ⟨_, rfl, rfl⟩)

/-- The accumulator forms have the opcode base + 08H (R141). -/
theorem encode_accumulatorForm (hi : accumulatorForm i = some op) :
    ∃ base, op.base = some base ∧ encode i = [base + 0x08] := by
  cases i <;> first | (cases hi; done) | (cases hi; exact ⟨_, rfl, rfl⟩)

end OnByte

/-- A shift or rotation of A completes with the shifted byte in A and the flags of the result. -/
theorem exec_shiftA {i : Instr} {op : RmwOp} {s : State} {r : Nat} {c : Bool} (hi : accumulatorForm i = some op)
    (hr : op.shift s.a (flag .c s.psw) = some (r, c)) :
    ∃ psw, exec i s = .next { s with a := BitVec.ofNat 8 r, psw := psw } ∧
      nzcOnly (BitVec.ofNat 8 r) c s.psw psw := by
  rw [exec_accumulator s hi, RmwOp.onByte_shift hr]
  exact ⟨_, rfl, nzcOnly_setNZ8 _ _ _⟩

/-- Settles O20: the opcodes of R141, and the shifts in numbers. -/
theorem shiftsAndRotations : Obligations.ShiftsAndRotations := by
  refine ⟨fun i op s r c hi hr => ⟨encode_accumulatorForm hi, exec_shiftA hi hr⟩, fun i op o s hi hop => ?_⟩
  obtain ⟨base, hbase⟩ : ∃ base, op.base = some base := by
    rcases hop with rfl | rfl | rfl | rfl <;> exact ⟨_, rfl⟩
  obtain ⟨offset, hoffset, hhead⟩ := encode_rmwForm hi hbase
  rw [exec_rmw s hi]
  refine ⟨⟨base, offset, hbase, hoffset, hhead⟩, fun ea s1 he hm => ?_, fun ea s1 => rmw_faults op,
    fun e => rmw_address_faults op⟩
  have hxma : op ≠ .xma := by rintro rfl; simp at hop
  obtain ⟨v, s2, hrw, hexec, hstored⟩ := rmw_answers hxma he hm
  obtain ⟨r, c, hr⟩ := RmwOp.shift_answers hop v (flag .c s.psw)
  rw [RmwOp.onByte_shift hr] at hrw hexec hstored
  exact ⟨v, r, c, _, s2, hr, hrw, hexec, nzcOnly_setNZ8 _ _ _, hstored⟩

/-- Settles O21: the count of a byte, in A or in memory. -/
theorem incrementDecrementComplement : Obligations.IncrementDecrementComplement := by
  refine ⟨fun i op s r hi hr => ?_, fun i op o s hi hop => ?_⟩
  · rw [exec_accumulator s hi, RmwOp.onByte_count hr]
    exact ⟨_, rfl, nzOnly_setNZ8 _ _⟩
  · rw [exec_rmw s hi]
    refine ⟨fun ea s1 he hm => ?_, fun ea s1 => rmw_faults op, fun e => rmw_address_faults op⟩
    have hxma : op ≠ .xma := by rintro rfl; simp at hop
    obtain ⟨v, s2, hrw, hexec, hstored⟩ := rmw_answers hxma he hm
    obtain ⟨r, hr⟩ := RmwOp.count_answers hop v
    rw [RmwOp.onByte_count hr] at hrw hexec hstored
    exact ⟨v, r, _, s2, hr, hrw, hexec, nzOnly_setNZ8 _ _, hstored⟩

/-! ## Register operations -/

/-- N and Z of the transferred byte where this transfer writes them, else PSW as it was (log entry 37). -/
theorem transferFlags_only (t : FlaggedTransfer) (v p : Byte) :
    if flaggedTransfer = t then nzOnly v p (transferFlags t v p) else transferFlags t v p = p := by
  split
  next h => exact transferFlags_same h v p ▸ nzOnly_setNZ8 v p
  next h => exact transferFlags_other h v p

/-- Settles O22, instruction by instruction. -/
theorem registerOperations : Obligations.RegisterOperations := by
  intro s
  have hnz (r : Byte) : nzOnly r s.psw (setNZ8 r s.psw) := nzOnly_setNZ8 r s.psw
  exact ⟨⟨_, rfl, hnz _⟩, ⟨_, rfl, hnz _⟩, ⟨_, rfl, hnz _⟩, ⟨_, rfl, hnz _⟩, ⟨_, _, rfl, xcn_eq s.a, hnz _⟩,
    ⟨_, rfl, hnz _⟩, ⟨_, rfl, hnz _⟩, ⟨_, rfl, hnz _⟩, ⟨_, rfl, transferFlags_only .txa s.x s.psw⟩,
    ⟨_, rfl, hnz _⟩, ⟨_, rfl, transferFlags_only .txsp s.x s.psw⟩, rfl, rfl, rfl⟩

end Sys2Proof.Machine
end

section
/-! Loads and stores of A, X and Y, and LDM (spec/41_reg_mem.md R180 to R188). -/

namespace Sys2Proof.Machine

/-! ## Loads -/

/-- A load puts the operand into its register and N and Z into PSW (R180, R183, R184). -/
theorem load_meaning {op : SourceOp} (h : op = .lda ∨ op = .ldx ∨ op = .ldy) :
    ∃ f : Cpu → Byte → Cpu, (∀ c m, op.load c m = some (f c m)) ∧
      ∀ src s, op.meaning src s =
        (readSource src s).done fun m s1 => s1.withCpu { f s1.cpu m with psw := setNZ8 m s.psw } := by
  rcases h with rfl | rfl | rfl
  · exact ⟨fun c m => { c with a := m }, fun _ _ => rfl, fun _ _ => rfl⟩
  · exact ⟨fun c m => { c with x := m }, fun _ _ => rfl, fun _ _ => rfl⟩
  · exact ⟨fun c m => { c with y := m }, fun _ _ => rfl, fun _ _ => rfl⟩

/-- Settles O17: the read of the operand uses free values only, so the load shows in the CPU registers alone. -/
theorem loads : Obligations.Loads := by
  intro i op src s hi hop
  obtain ⟨f, hload, hmeaning⟩ := load_meaning hop
  rw [exec_source s hi, hmeaning]
  refine ⟨fun m s1 h => ?_, fun e h => by rw [h, Res.done_fault]⟩
  obtain ⟨k, rfl⟩ := readSource_ok h
  exact ⟨_, _, _, hload s.cpu m, by rw [h]; rfl, onlyCpu_intro _ s k, nzOnly_setNZ8 m s.psw⟩

/-! ## Stores -/

section Store

variable {o : Operand} {s s1 : State} {ea : Word}

/-- A store to a writable address is one write after the address is formed (decision D22). -/
theorem store_answers (v : Byte) (he : effectiveAddress o s = .ok ea s1) (hw : writable s.device ea = true) :
    ∃ t, store v o s = .next t ∧ memWrite ea v s1 = .ok () t ∧ storedOnly ea v s.cpu s t := by
  obtain ⟨k, rfl⟩ := effectiveAddress_ok he
  obtain ⟨t, hwrite⟩ := memWrite_answers (v := v) (s := s.spend k) hw
  exact ⟨t, by rw [store, he, Res.bind_ok, hwrite, Res.done_ok], hwrite, memWrite_storedOnly (s := s.spend k) hwrite⟩

theorem store_faults (v : Byte) (he : effectiveAddress o s = .ok ea s1) (hw : writable s.device ea = false) :
    ∃ e, store v o s = .fault e := by
  obtain ⟨k, rfl⟩ := effectiveAddress_ok he
  obtain ⟨e, hwrite⟩ := memWrite_faults (v := v) (s := s.spend k) hw
  exact ⟨e, by rw [store, he, Res.bind_ok, hwrite, Res.done_fault]⟩

/-- A store whose address cannot be formed ends in the fault of the address. -/
theorem store_address_faults (v : Byte) {e : Fault} (he : effectiveAddress o s = .fault e) :
    store v o s = .fault e := by
  rw [store, he, Res.bind_fault, Res.done_fault]

end Store

/-- Settles O26: every form is `store` of its value, which writes once where the address can be written. -/
theorem stores : Obligations.Stores := by
  intro i v o s hi
  rw [exec_store s hi]
  exact ⟨fun _ _ => store_answers (v.of s), fun _ _ => store_faults (v.of s), fun _ => store_address_faults (v.of s)⟩

end Sys2Proof.Machine
end

section
/-! 16-bit instructions (spec/42_word16.md R210 to R217): the sum and the difference of YA and a direct-page pair, and
what the reads and writes of a pair can do. -/

namespace Sys2Proof.Machine

/-! ## The sum and the difference of two words -/

/-- The sum of R211. -/
theorem addWord_r (a m : Word) : (addWord a m).1 = a + m := by
  apply BitVec.eq_of_toNat_eq
  simp [addWord]

/-- The overflow of R211 is that of the signed sum. -/
theorem addWord_v (a m : Word) :
    (addWord a m).2.2 = decide (a.toInt + m.toInt < -32768 ∨ 32767 < a.toInt + m.toInt) := by
  have := a.isLt
  have := m.isLt
  simp only [addWord, BitVec.msb_eq_decide, BitVec.toInt_eq_toNat_cond, BitVec.toNat_ofNat]
  rw [Bool.eq_iff_iff]
  simp
  split <;> split <;> omega

/-- The sum of R211, its carry and its overflow. -/
theorem addWord_eq (a m : Word) :
    addWord a m = (a + m, decide (65535 < a.toNat + m.toNat),
      decide (a.toInt + m.toInt < -32768 ∨ 32767 < a.toInt + m.toInt)) :=
  Prod.ext (addWord_r a m) (Prod.ext rfl (addWord_v a m))

/-- The difference of R212 and R217. -/
theorem subWord_r (a m : Word) : (subWord a m).1 = a - m := by
  have := a.isLt
  have := m.isLt
  apply BitVec.eq_of_toNat_eq
  simp [subWord]
  omega

/-- C of R212 and R217 is 1 where there is no borrow (decision D12). -/
theorem subWord_c (a m : Word) : (subWord a m).2.1 = decide (m.toNat ≤ a.toNat) := by
  simp [subWord]

/-- The overflow of R217 is that of the signed difference. -/
theorem subWord_v (a m : Word) :
    (subWord a m).2.2 = decide (a.toInt - m.toInt < -32768 ∨ 32767 < a.toInt - m.toInt) := by
  have := a.isLt
  have := m.isLt
  simp only [subWord, BitVec.msb_eq_decide, BitVec.toInt_eq_toNat_cond, BitVec.toNat_ofInt]
  rw [Bool.eq_iff_iff]
  simp
  split <;> split <;> omega

/-- The difference of R217, its C and its overflow. -/
theorem subWord_eq (a m : Word) :
    subWord a m = (a - m, decide (m.toNat ≤ a.toNat),
      decide (a.toInt - m.toInt < -32768 ∨ 32767 < a.toInt - m.toInt)) :=
  Prod.ext (subWord_r a m) (Prod.ext (subWord_c a m) (subWord_v a m))

/-! ## Flags of 16-bit results -/

/-- N and Z of a word. -/
theorem setNZ16_flags (r : Word) (p : Byte) :
    flag .n (setNZ16 r p) = r.msb ∧ flag .z (setNZ16 r p) = decide (r = 0) := by
  simp [beq_eq_decide]

/-- The flags of a 16-bit sum or difference. -/
theorem writeSum16_flags (r : Word) (c h v : Bool) (p : Byte) :
    flag .n (writeSum16 r c h v p) = r.msb ∧ flag .z (writeSum16 r c h v p) = decide (r = 0) ∧
      flag .c (writeSum16 r c h v p) = c ∧ flag .h (writeSum16 r c h v p) = h ∧ flag .v (writeSum16 r c h v p) = v := by
  simp [writeSum16, beq_eq_decide]

/-- Z of a difference is 1 where the operands are equal. -/
theorem decide_sub_eq_zero (a m : Word) : decide (a - m = 0) = decide (a = m) := decide_eq_decide.mpr sub_eq_zero

/-- What CMPW does to the flags (R212). -/
theorem compare16_flags (a m : Word) (p : Byte) :
    flag .n (compare16 a m p) = (a - m).msb ∧ flag .z (compare16 a m p) = decide (a = m) ∧
      flag .c (compare16 a m p) = decide (m.toNat ≤ a.toNat) ∧ flagsKept [.n, .z, .c] p (compare16 a m p) := by
  obtain ⟨hn, hz⟩ := setNZ16_flags (a - m) (setFlag .c (decide (m.toNat ≤ a.toNat)) p)
  have heq : compare16 a m p = setNZ16 (a - m) (setFlag .c (decide (m.toNat ≤ a.toNat)) p) := by
    rw [compare16, subWord_r, subWord_c]
  exact ⟨heq ▸ hn, heq ▸ hz.trans (decide_sub_eq_zero a m), by simp [heq], flagsKept_compare16 a m p⟩

/-- A flag two readings give is the first where they agree or the first is picked, and the second where that is. -/
theorem settle_picked {α : Type} (readings : α → Bool) (first second : α) (picked : Option α) (free : Bool) :
    (picked = some first ∨ readings first = readings second →
      settle readings first second picked free = readings first) ∧
    (picked = some second → settle readings first second picked free = readings second) := by
  unfold settle
  split
  case isTrue hagree => exact ⟨fun _ => rfl, fun _ => hagree⟩
  case isFalse hdiffer =>
    constructor
    · rintro (rfl | h)
      · rfl
      · exact absurd h hdiffer
    · rintro rfl
      rfl

/-! ## ADDW and SUBW -/

/-- The shape ADDW and SUBW share: `f` gives the result, C and V from the pair read, and `half` the readings of H. -/
def wordSum (f : Word → Word × Bool × Bool) (half : Word → WordHRule → Bool) (d : Byte) (s : State) : Result :=
  (readPair d s).done fun w s1 =>
    let h := settle (half w) .bit11 .bit3 Config.wordHRule (testBit (freeAt s1 0) 0)
    let draws := if unsettled (half w) .bit11 .bit3 Config.wordHRule then 1 else 0
    ((s1.withPsw (writeSum16 (f w).1 (f w).2.1 h (f w).2.2 s.psw)).setYA (f w).1).spend draws

theorem exec_addwDp (d : Byte) (s : State) :
    exec (.addwDp d) s = wordSum (addWord s.ya) (fun w rule => halfAdd rule s.ya w) d s := rfl

theorem exec_subwDp (d : Byte) (s : State) :
    exec (.subwDp d) s = wordSum (subWord s.ya) (fun w rule => halfSub rule s.ya w) d s := rfl

section WordSum

variable {f : Word → Word × Bool × Bool} {half : Word → WordHRule → Bool} {d : Byte} {w : Word} {s s1 : State}

/-- A sum or difference with a pair that is read puts the result into YA and its flags into PSW, H as `WORD_H_RULE`
settles it (log entry 8). -/
theorem wordSum_answers {r : Word} {c v : Bool} (hf : f w = (r, c, v)) (h : readPair d s = .ok w s1) :
    ∃ psw t, wordSum f half d s = .next t ∧
      onlyCpu { s.cpu with a := loByte r, y := hiByte r, psw := psw } s t ∧
      flag .n psw = r.msb ∧ flag .z psw = decide (r = 0) ∧ flag .c psw = c ∧ flag .v psw = v ∧
      (Config.wordHRule = some .bit11 ∨ half w .bit11 = half w .bit3 → flag .h psw = half w .bit11) ∧
      (Config.wordHRule = some .bit3 → flag .h psw = half w .bit3) ∧ flagsKept [.n, .v, .h, .z, .c] s.psw psw := by
  obtain ⟨k, rfl⟩ := readPair_ok h
  obtain ⟨h11, h3⟩ := settle_picked (half w) .bit11 .bit3 Config.wordHRule (testBit (freeAt (s.spend k) 0) 0)
  obtain ⟨hn, hz, hc, hh, hv⟩ := writeSum16_flags r c
    (settle (half w) .bit11 .bit3 Config.wordHRule (testBit (freeAt (s.spend k) 0) 0)) v s.psw
  have honly := onlyCpu_of (c := { s.cpu with
      a := loByte r, y := hiByte r,
      psw := writeSum16 r c (settle (half w) .bit11 .bit3 Config.wordHRule (testBit (freeAt (s.spend k) 0) 0)) v s.psw })
    (State.spend_spend s k (if unsettled (half w) .bit11 .bit3 Config.wordHRule then 1 else 0)) rfl
  refine ⟨_, _, ?_, honly, hn, hz, hc, hv, fun hp => hh.trans (h11 hp), fun hp => hh.trans (h3 hp),
    flagsKept_writeSum16 r c _ v s.psw⟩
  rw [wordSum, h, Res.done_ok, hf]
  rfl

theorem wordSum_faults {e : Fault} (h : readPair d s = .fault e) : wordSum f half d s = .fault e := by
  rw [wordSum, h, Res.done_fault]

end WordSum

/-- Settles O29: `addWord` and `subWord` are the sum and the difference with their carry and signed overflow. -/
theorem wordArithmetic : Obligations.WordArithmetic := by
  intro d s
  rw [exec_addwDp, exec_subwDp]
  refine ⟨fun w s1 hread => ⟨wordSum_answers (addWord_eq s.ya w) hread, ?_⟩,
    fun e hread => ⟨wordSum_faults hread, wordSum_faults hread⟩⟩
  obtain ⟨psw, t, hexec, honly, hn, hz, hrest⟩ := wordSum_answers (subWord_eq s.ya w) hread
  exact ⟨psw, t, hexec, honly, hn, hz.trans (decide_sub_eq_zero s.ya w), hrest⟩

/-! ## Reads and writes of a pair -/

/-- An operation that never ends in a next state faults. -/
theorem done_faults {α : Type} {r : Res α} {f : α → State → State} (h : ∀ t, r.done f ≠ .next t) :
    ∃ e, r.done f = .fault e := by
  cases r with
  | ok v s => exact absurd rfl (h (f v s))
  | fault e => exact ⟨e, rfl⟩

section Pair

variable {d : Byte} {w : Word} {s t : State}

/-- A pair in page 0 whose bytes can be read is read. -/
theorem readPair_answers (hg : flag .g s.psw = false) (hlo : readable s.device (zext16 d) = true)
    (hhi : readable s.device (zext16 (d + 1)) = true) : ∃ w k, readPair d s = .ok w (s.spend k) := by
  obtain ⟨lo, j, h1⟩ := memRead_answers hlo
  obtain ⟨hi, k, h2⟩ := memRead_answers (s := s.spend j) hhi
  exact ⟨_, j + k, State.spend_spend s j k ▸ readPair_of_reads hg h1 h2⟩

/-- What a write of a pair that answers does: two writes, low byte first (decision D22). -/
theorem writePair_eq_ok {u : Unit} (h : writePair d w s = .ok u t) :
    ∃ s1, flag .g s.psw = false ∧ memWrite (zext16 d) (loByte w) s = .ok () s1 ∧
      memWrite (zext16 (d + 1)) (hiByte w) s1 = .ok () t := by
  obtain ⟨lo, s0, h0, b0⟩ := Res.bind_eq_ok.mp h
  obtain ⟨hg, rfl, rfl⟩ := directPage_ok h0
  obtain ⟨_, s1, h1, b1⟩ := Res.bind_eq_ok.mp b0
  obtain ⟨hi, s2, h2, h3⟩ := Res.bind_eq_ok.mp b1
  obtain ⟨-, rfl, rfl⟩ := directPage_ok h2
  exact ⟨s2, hg, h1, h3⟩

/-- Both bytes of a pair that was written may be written. -/
theorem writePair_writable {u : Unit} (h : writePair d w s = .ok u t) :
    flag .g s.psw = false ∧ writable s.device (zext16 d) = true ∧ writable s.device (zext16 (d + 1)) = true := by
  obtain ⟨s1, hg, h1, h2⟩ := writePair_eq_ok h
  obtain ⟨hlo, -, -, -, hset, -⟩ := memWrite_ok h1
  obtain ⟨hhi, -⟩ := memWrite_ok h2
  exact ⟨hg, hlo, hset.1 ▸ hhi⟩

/-- A pair in page 0 whose bytes may be written is written. -/
theorem writePair_answers (w : Word) (hg : flag .g s.psw = false) (hlo : writable s.device (zext16 d) = true)
    (hhi : writable s.device (zext16 (d + 1)) = true) : ∃ t, writePair d w s = .ok () t := by
  obtain ⟨s1, h1⟩ := memWrite_answers (v := loByte w) hlo
  obtain ⟨-, hcpu, -, -, hset, -⟩ := memWrite_ok h1
  obtain ⟨t, h2⟩ := memWrite_answers (v := hiByte w) (s := s1) (hset.1.symm ▸ hhi)
  have hg1 : flag .g s1.psw = false := (congrArg (fun c : Cpu => flag .g c.psw) hcpu).trans hg
  exact ⟨t, by simp only [writePair, directPage_clear hg, directPage_clear hg1, h1, h2, Res.bind_ok]⟩

/-- The two bytes of a pair lie at different addresses. -/
theorem zext16_ne_succ (d : Byte) : zext16 d ≠ zext16 (d + 1) := by
  unfold zext16
  bv_omega

/-- A write of a pair that answers stored the pair. -/
theorem writePair_pairStored {u : Unit} (h : writePair d w s = .ok u t) : pairStored d w s.cpu s t := by
  obtain ⟨hcpu, hframe⟩ := writePair_access h
  obtain ⟨s1, -, h1, h2⟩ := writePair_eq_ok h
  obtain ⟨-, -, -, -, -, -, hram1⟩ := memWrite_ok h1
  obtain ⟨-, -, -, -, -, hkept2, hram2⟩ := memWrite_ok h2
  refine ⟨hcpu, hframe.mode, hframe.setting, fun a ha => writePair_kept h a (by simpa using ha), fun hlo => ?_,
    fun hhi => (hram2 hhi).1, fun hlo hhi _ => (hram2 hhi).2.trans (hram1 hlo).2⟩
  exact (hkept2 _ (zext16_ne_succ d)).trans (hram1 hlo).1

/-- The events inside the instruction come before the store of the pair. -/
theorem pairStored_between {c : Cpu} (h : pairStored d w c (betweenReadAndWrite s) t) : pairStored d w c s t := by
  obtain ⟨hcpu, hmode, hset, hmem, hlo, hhi, hper⟩ := h
  have hq := quiet_betweenReadAndWrite s
  refine ⟨hcpu, hmode.trans hq.accessFrame.mode, settingKept_trans hq.accessFrame.setting hset,
    fun a ha => (hmem a ha).trans (quiet_byteAt hq a), hlo, hhi, fun h1 h2 hmid => ?_⟩
  rw [betweenReadAndWrite_none hmid] at hper
  exact hper h1 h2 hmid

theorem pairStored_withPsw (h : pairStored d w s.cpu s t) (p : Byte) :
    pairStored d w { s.cpu with psw := p } s (t.withPsw p) := by
  obtain ⟨hcpu, hrest⟩ := h
  exact ⟨congrArg (fun c : Cpu => { c with psw := p }) hcpu, hrest⟩

end Pair

/-- Settles O30: CMPW and LDYA change CPU registers after the read of the pair, STYA is the write of the pair. -/
theorem wordCompareLoadStore : Obligations.WordCompareLoadStore := by
  refine fun d s => ⟨fun w s1 hread => ?_, fun e hread => ?_, fun hg hlo hhi => ?_, fun hbad => ?_⟩
  · obtain ⟨k, rfl⟩ := readPair_ok hread
    obtain ⟨hn, hz⟩ := setNZ16_flags w s.psw
    refine ⟨⟨_, _, ?_, onlyCpu_intro _ s k, compare16_flags s.ya w s.psw⟩,
      ⟨_, _, ?_, onlyCpu_intro _ s k, hn, hz, flagsKept_nz16 w s.psw⟩⟩
    · rw [exec, execCmpwDp, hread]
      rfl
    · rw [exec, execLdyaDp, hread]
      rfl
  · simp [exec, execCmpwDp, execLdyaDp, hread]
  · obtain ⟨t, hwrite⟩ := writePair_answers s.ya hg hlo hhi
    obtain ⟨s1, -, h1, h2⟩ := writePair_eq_ok hwrite
    rw [State.ya, loByte_wordOf] at h1
    rw [State.ya, hiByte_wordOf] at h2
    exact ⟨s1, t, h1, h2, by rw [exec, execStyaDp, hwrite, Res.done_ok], writePair_pairStored hwrite⟩
  · refine done_faults fun t ht => ?_
    obtain ⟨_, s1, hwrite, -⟩ := Res.done_eq_next.mp ht
    obtain ⟨hg, hlo, hhi⟩ := writePair_writable hwrite
    rw [hg, hlo, hhi] at hbad
    simp at hbad

/-! ## Read-modify-writes of a pair -/

section ModifyPair

variable {f : Word → Word} {d : Byte} {s t : State}

/-- What passes the check of a read-modify-write and may be written may be modified. -/
theorem modifiable_of_rmwCheck {a : Word} {u : Unit} (hc : rmwCheck a s = .ok u t) (hw : writable s.device a = true) :
    modifiable s.device a = true := by
  unfold rmwCheck at hc
  unfold writable at hw
  unfold modifiable
  cases hr : regionOf s.device a with
  | ram => rfl
  | sfr r =>
    simp only [hr] at hc ⊢
    split at hc
    case isTrue => cases hc
    case isFalse hb => simpa using hb
  | rom | unimplemented => simp [hr] at hw

/-- A count of a pair that answers: G = 0 and both bytes may be modified. -/
theorem modifyPair_modifiable (h : modifyPair f d s = .next t) :
    flag .g s.psw = false ∧ modifiable s.device (zext16 d) = true ∧ modifiable s.device (zext16 (d + 1)) = true := by
  obtain ⟨w, s5, h5, -⟩ := Res.done_eq_next.mp h
  obtain ⟨lo, s0, h0, b0⟩ := Res.bind_eq_ok.mp h5
  obtain ⟨hg, rfl, rfl⟩ := directPage_ok h0
  obtain ⟨_, s1, h1, b1⟩ := Res.bind_eq_ok.mp b0
  obtain rfl := rmwCheck_ok h1
  obtain ⟨hi, s2, h2, b2⟩ := Res.bind_eq_ok.mp b1
  obtain ⟨-, rfl, rfl⟩ := directPage_ok h2
  obtain ⟨_, s3, h3, b3⟩ := Res.bind_eq_ok.mp b2
  obtain rfl := rmwCheck_ok h3
  obtain ⟨v, s4, h4, b4⟩ := Res.bind_eq_ok.mp b3
  obtain ⟨k, rfl⟩ := readPair_ok h4
  obtain ⟨_, s6, h6, -⟩ := Res.bind_eq_ok.mp b4
  obtain ⟨-, hlo, hhi⟩ := writePair_writable h6
  obtain ⟨hdev, -⟩ := (quiet_betweenReadAndWrite (s3.spend k)).accessFrame.setting
  rw [hdev, State.spend_device] at hlo hhi
  exact ⟨hg, modifiable_of_rmwCheck h1 hlo, modifiable_of_rmwCheck h3 hhi⟩

/-- A count of a pair whose bytes may be modified: both are read, then both are written (decision D22). -/
theorem modifyPair_answers (f : Word → Word) (hg : flag .g s.psw = false)
    (hlo : modifiable s.device (zext16 d) = true) (hhi : modifiable s.device (zext16 (d + 1)) = true) :
    ∃ w s1 s2, readPair d s = .ok w s1 ∧ writePair d (f w) (betweenReadAndWrite s1) = .ok () s2 ∧
      modifyPair f d s = .next (s2.withPsw (setNZ16 (f w) s.psw)) ∧ pairStored d (f w) s.cpu s s2 := by
  obtain ⟨w, k, hread⟩ := readPair_answers hg (modifiable_readable hlo) (modifiable_readable hhi)
  have hq := quiet_betweenReadAndWrite (s.spend k)
  have hcpu := hq.1
  obtain ⟨hdev, -⟩ := hq.accessFrame.setting
  have hgq : flag .g (betweenReadAndWrite (s.spend k)).psw = false :=
    (congrArg (fun c : Cpu => flag .g c.psw) hcpu).trans hg
  obtain ⟨t, hwrite⟩ := writePair_answers (f w) hgq (hdev ▸ modifiable_writable hlo) (hdev ▸ modifiable_writable hhi)
  have hstored : pairStored d (f w) s.cpu (s.spend k) t :=
    pairStored_between (hcpu ▸ writePair_pairStored hwrite)
  refine ⟨w, s.spend k, t, hread, hwrite, ?_, hstored⟩
  simp only [modifyPair, directPage_clear hg, rmwCheck_modifiable hlo, rmwCheck_modifiable hhi, hread, hwrite,
    Res.bind_ok, Res.done_ok]

end ModifyPair

/-- INCW and DECW add 1 and 65535 to the pair (R213, R214). -/
theorem exec_wordCount {i : Instr} {d : Byte} {step : Word} (s : State)
    (h : (i = .incwDp d ∧ step = 1) ∨ (i = .decwDp d ∧ step = 0xFFFF)) :
    exec i s = modifyPair (fun w => w + step) d s := by
  obtain ⟨rfl, rfl⟩ | ⟨rfl, rfl⟩ := h
  · rfl
  · have hsub : (fun w : Word => w - 1) = fun w => w + 0xFFFF := funext fun w => BitVec.sub_eq_add_neg w 1
    rw [exec, execDecwDp, hsub]

/-- Settles O31: the count of the pair is `modifyPair`, which answers just where both bytes may be modified. -/
theorem wordCounts : Obligations.WordCounts := by
  intro i d step s hi
  rw [exec_wordCount s hi]
  refine ⟨fun hg hlo hhi => ?_, fun hbad => done_faults fun t ht => ?_⟩
  · obtain ⟨w, s1, s2, hread, hwrite, hexec, hstored⟩ := modifyPair_answers (fun w => w + step) hg hlo hhi
    obtain ⟨hn, hz⟩ := setNZ16_flags (w + step) s.psw
    exact ⟨w, s1, s2, _, hread, hwrite, hexec, hn, hz, flagsKept_nz16 _ _, pairStored_withPsw hstored _⟩
  · obtain ⟨hg, hlo, hhi⟩ := modifyPair_modifiable ht
    rw [hg, hlo, hhi] at hbad
    simp at hbad

end Sys2Proof.Machine
end

section
/-! Bit instructions on C and on A, TSET1 and TCLR1, and the instructions on one flag (spec/43_bit.md R231 to R254,
spec/45_control.md R301 to R303). -/

namespace Sys2Proof.Machine

/-! ## TSET1 and TCLR1 -/

/-- TSET1 and TCLR1 write the byte with the bits of A changed; N and Z are those of the difference (R253, R254). -/
theorem RmwOp.onByte_masked {op : RmwOp} {a v r : Byte} (h : op.masked v a = some r) (p : Byte) :
    op.onByte a v p = (r, setNZ8 (a - v) p) := by
  cases op with
  | tclr1 | tset1 => cases h; rfl
  | _ => cases h

theorem RmwOp.masked_answers {op : RmwOp} (h : op = .tclr1 ∨ op = .tset1) (v a : Byte) :
    ∃ r, op.masked v a = some r := by
  rcases h with rfl | rfl <;> exact ⟨_, rfl⟩

/-- Settles O33: a read-modify-write at the absolute address, which forming leaves the state alone. -/
theorem testAndModifyBits : Obligations.TestAndModifyBits := by
  intro i op a s hi hop
  have haddress : effectiveAddress (.abs a) s = .ok a s := rfl
  rw [exec_rmw s hi]
  refine ⟨fun hm => ?_, rmw_faults op haddress⟩
  have hxma : op ≠ .xma := by rintro rfl; simp at hop
  obtain ⟨v, s2, hrw, hexec, hstored⟩ := rmw_answers hxma haddress hm
  obtain ⟨r, hr⟩ := RmwOp.masked_answers hop v s.a
  rw [RmwOp.onByte_masked hr] at hrw hexec hstored
  exact ⟨v, r, _, s2, hr, hrw, hexec, nzOnly_setNZ8 _ _, hstored⟩

/-! ## Flags and the carry -/

/-- The flag written has its value, and no other flag changed. -/
theorem setFlag_only (f : Flag) (value : Bool) (p : Byte) :
    flag f (setFlag f value p) = value ∧ flagsKept [f] p (setFlag f value p) :=
  ⟨by simp, flagsKept_setFlag (by simp) (flagsKept_refl _ _)⟩

/-- Reading a memory bit is reading its byte (R231). -/
theorem readMemoryBit_of_read {b1 b2 v : Byte} {s s1 : State}
    (h : memRead (Config.mbitDecode b1 b2).addr s = .ok v s1) :
    readMemoryBit b1 b2 s = .ok (v.getLsbD (Config.mbitDecode b1 b2).bit.toNat) s1 := by
  simp only [readMemoryBit, h, Res.bind_ok, testBit]

theorem readMemoryBit_faults {b1 b2 : Byte} {s : State} {e : Fault}
    (h : memRead (Config.mbitDecode b1 b2).addr s = .fault e) : readMemoryBit b1 b2 s = .fault e := by
  simp only [readMemoryBit, h, Res.bind_fault]

/-- Settles O34: the read of the bit uses free values only, so the instruction shows in C alone. -/
theorem carryBitOperations : Obligations.CarryBitOperations := by
  intro i op b1 b2 s hi
  rw [exec_carry s hi, carryWith]
  refine ⟨fun v s1 h => ?_, fun e h => by rw [readMemoryBit_faults h, Res.done_fault]⟩
  have hbit := readMemoryBit_of_read h
  obtain ⟨k, rfl⟩ := readMemoryBit_ok hbit
  obtain ⟨hc, hkept⟩ := setFlag_only .c
    (op.result (flag .c s.psw) (v.getLsbD (Config.mbitDecode b1 b2).bit.toNat)) s.psw
  exact ⟨_, _, by rw [hbit, Res.done_ok]; rfl, onlyCpu_intro _ s k, hc, hkept⟩

/-! ## Instructions on one flag or one bit of A -/

/-- CLRV clears H with V (R240). -/
theorem clearOverflow_only (p : Byte) :
    flag .v (setFlag .h false (setFlag .v false p)) = false ∧ flag .h (setFlag .h false (setFlag .v false p)) = false ∧
      flagsKept [.v, .h] p (setFlag .h false (setFlag .v false p)) :=
  ⟨by simp, by simp, flagsKept_setFlag (by decide) (flagsKept_setFlag (by decide) (flagsKept_refl _ _))⟩

/-- SETA1 and CLRA1 give one bit of A a value (R237, R249). -/
theorem exec_assignA {i : Instr} {b : Byte} {x : Bool} (h : (i = .seta1 b ∧ x = true) ∨ (i = .clra1 b ∧ x = false))
    (s : State) :
    exec i s = .next { s with a := (if x then s.a ||| bitMask (Config.abitDecode b)
      else s.a &&& ~~~bitMask (Config.abitDecode b)) } := by
  obtain ⟨rfl, rfl⟩ | ⟨rfl, rfl⟩ := h <;> rfl

/-- Settles O35, group by group: one flag, V and H, nothing, one bit of A. -/
theorem flagAndAccumulatorBits : Obligations.FlagAndAccumulatorBits := by
  refine ⟨fun i f value hi s => ?_, fun s => ?_, fun s => rfl, fun i b x s hi => ?_⟩
  · have hexec : exec i s = .next (s.withPsw (setFlag f value s.psw)) := by
      simp only [List.mem_cons, Prod.mk.injEq, List.not_mem_nil, or_false] at hi
      rcases hi with ⟨rfl, rfl, rfl⟩ | ⟨rfl, rfl, rfl⟩ | ⟨rfl, rfl, rfl⟩ | ⟨rfl, rfl, rfl⟩ | ⟨rfl, rfl, rfl⟩ |
        ⟨rfl, rfl, rfl⟩ <;> rfl
    exact ⟨_, hexec, setFlag_only f value s.psw⟩
  · exact ⟨_, rfl, clearOverflow_only s.psw⟩
  · exact ⟨_, exec_assignA hi s, assign_getLsbD s.a (Config.abitDecode b) x⟩

end Sys2Proof.Machine
end

section
/-! Calls, and the return to the instruction after a call (spec/44_branch.md R284, R285, R289 to R291,
spec/45_control.md R312). -/

namespace Sys2Proof.Machine

/-! ## Calls -/

/-- A call whose target is known beforehand pushes PC and takes the target (R284, R289, R290). The vector of TCALL is
read after the pushes, which do not reach the program memory. -/
theorem exec_call {i : Instr} {s : State} {target : Word} (h : callTarget i s = some target) :
    exec i s = (pushAll [hiByte s.pc, loByte s.pc] s).done fun _ s1 => s1.withPc target := by
  rw [← pushPc_eq]
  cases i
  case callAbs => cases h; rfl
  case pcall upage =>
    have htarget : wordOf 0xFF upage = target := by
      rw [← Option.some.inj h]
      exact BitVec.eq_of_toNat_eq (by rw [wordOf_toNat]; bv_omega)
    rw [← htarget]
    rfl
  case tcall n =>
    have haddr : (0xFFC0 + 2 * (15 - n.setWidth 16) : Word) = 0xFFDE - 2 * n.setWidth 16 := by ring
    have hvector : s.vectorAt (0xFFDE - 2 * n.setWidth 16) = target := haddr ▸ Option.some.inj h
    simp only [exec, execTcall]
    cases hpush : pushPc s with
    | fault e => rfl
    | ok _ s1 =>
      have hstacked := pushed_stackedOnly (by simp) (pushAll_ok (pushPc_eq s ▸ hpush))
      rw [Res.done_ok, Res.done_ok, vectorAt_stacked hstacked _ (by bv_omega) (by bv_omega), hvector]
  all_goals cases h

/-- `CALL [dp]` pushes PC and then reads its target (R285, D22). -/
theorem exec_callIndDp (d : Byte) (s : State) :
    exec (.callIndDp d) s = ((pushAll [hiByte s.pc, loByte s.pc] s).bind fun _ s1 => readPair d s1).done
      fun target s1 => s1.withPc target := by
  rw [← pushPc_eq]
  rfl

/-- Settles O39: every call is the two pushes of PC, then the load of PC. -/
theorem calls : Obligations.Calls := by
  refine ⟨fun i target s hi => ⟨fun hp => ?_, fun hp => ?_⟩, fun d s => ⟨fun hp => ?_, fun hp => ?_⟩⟩
  · obtain ⟨t, hpush, hpushed, honly⟩ := pushAll_pushable (bytes := [hiByte s.pc, loByte s.pc]) (by simp) hp
    exact ⟨t, hpushed, by rw [exec_call hi, hpush]; rfl, honly⟩
  · obtain ⟨e, he⟩ := pushAll_faults (bytes := [hiByte s.pc, loByte s.pc]) hp
    exact ⟨e, by rw [exec_call hi, he]; rfl⟩
  · obtain ⟨t, hpush, hpushed, honly⟩ := pushAll_pushable (bytes := [hiByte s.pc, loByte s.pc]) (by simp) hp
    have hexec : exec (.callIndDp d) s = (readPair d t).done fun target s1 => s1.withPc target := by
      rw [exec_callIndDp, hpush, Res.bind_ok]
    exact ⟨t, hpushed, honly, fun target u hread => ⟨by rw [hexec, hread]; rfl, readPair_ok hread⟩,
      fun e hread => by rw [hexec, hread]; rfl⟩
  · obtain ⟨e, he⟩ := pushAll_faults (bytes := [hiByte s.pc, loByte s.pc]) hp
    exact ⟨e, by rw [exec_callIndDp, he]; rfl⟩

/-! ## The return -/

/-- A call that completes has pushed PC; after that it used free values at most and loaded PC. -/
theorem call_stacked {i : Instr} {s t : State} (hi : (callTarget i s).isSome = true ∨ ∃ d, i = .callIndDp d)
    (h : exec i s = .next t) :
    ∃ s1 k target, stackedOnly [hiByte s.pc, loByte s.pc] s s1 ∧ t = (s1.spend k).withPc target := by
  obtain hi | ⟨d, rfl⟩ := hi
  · obtain ⟨target, htarget⟩ := Option.isSome_iff_exists.mp hi
    rw [exec_call htarget] at h
    obtain ⟨_, s1, hpush, rfl⟩ := Res.done_eq_next.mp h
    exact ⟨s1, 0, target, pushed_stackedOnly (by simp) (pushAll_ok hpush), rfl⟩
  · rw [exec_callIndDp] at h
    obtain ⟨target, s2, hread, rfl⟩ := Res.done_eq_next.mp h
    obtain ⟨_, s1, hpush, hpair⟩ := Res.bind_eq_ok.mp hread
    obtain ⟨k, rfl⟩ := readPair_ok hpair
    exact ⟨s1, k, target, pushed_stackedOnly (by simp) (pushAll_ok hpush), rfl⟩

/-- The byte of memory at an address of the RAM. -/
theorem State.byteAt_ram {a : Word} (s : State) (h : inRam a) : s.byteAt a = some (s.ramByte a) := by
  simp [State.byteAt, regionOf_ram.mpr h]

/-- A pop takes the byte of RAM above SP. -/
theorem pop8_ram {s : State} {v : Byte} (hram : inRam (zext16 (s.sp + 1)))
    (h : s.byteAt (zext16 (s.sp + 1)) = some v) : pop8 s = .ok v (s.withSp (s.sp + 1)) := by
  have hv : s.ramByte (zext16 (s.sp + 1)) = v := Option.some.inj ((s.byteAt_ram hram).symm.trans h)
  rw [pop8, memRead_ram hram, ← hv]
  rfl

/-- A pop of a word takes the two bytes of RAM above SP, low byte first (R312). -/
theorem popWord_ram {s : State} {lo hi : Byte} (hram1 : inRam (zext16 (s.sp + 1)))
    (hlo : s.byteAt (zext16 (s.sp + 1)) = some lo) (hram2 : inRam (zext16 (s.sp + 1 + 1)))
    (hhi : s.byteAt (zext16 (s.sp + 1 + 1)) = some hi) :
    popWord s = .ok (wordOf hi lo) (s.withSp (s.sp + 1 + 1)) := by
  have hsecond : pop8 (s.withSp (s.sp + 1)) = .ok hi (s.withSp (s.sp + 1 + 1)) :=
    pop8_ram (s := s.withSp (s.sp + 1)) hram2 hhi
  rw [popWord, pop8_ram hram1 hlo, Res.bind_ok, hsecond, Res.bind_ok]

/-- Settles O44: SP of the callee is two below SP of the caller, so RET pops the two bytes the call pushed. -/
theorem callThenReturn : Obligations.CallThenReturn := by
  intro i s t h hi hstack hexec hsp hbytes
  obtain ⟨s1, k, target, ⟨hcpu, -, -, -, hpushed, -⟩, rfl⟩ := call_stacked hi hexec
  have hcallee : h.sp = s.sp - 2 := hsp.trans (congrArg Cpu.sp hcpu)
  have hsp1 : h.sp + 1 = s.sp - 1 := by rw [hcallee]; ring
  have hsp2 : h.sp + 1 + 1 = s.sp := by rw [hcallee]; ring
  have htop : zext16 (h.sp + 1 + 1) = stackByte s 0 := by rw [hsp2]; simp [stackByte]
  have hnext : zext16 (h.sp + 1) = stackByte s 1 := by rw [hsp1]; rfl
  have hread (j : Nat) (hj : j < 2) : h.byteAt (stackByte s j) = [hiByte s.pc, loByte s.pc][j]? :=
    (hbytes j hj).trans (hpushed j hj (hstack j hj))
  have hpop : popWord h = .ok s.pc (h.withSp s.sp) := by
    rw [popWord_ram (hnext ▸ hstack 1 (by simp)) (hnext ▸ hread 1 (by simp)) (htop ▸ hstack 0 (by simp))
      (htop ▸ hread 0 (by simp)), wordOf_bytes, hsp2]
  exact ⟨_, by rw [exec, execRet, hpop]; rfl, onlyCpu_intro _ h 0⟩

end Sys2Proof.Machine
end

section
/-! Returns, the software interrupt, and the return from an interrupt (spec/45_control.md R300, R312, R313,
spec/60_exceptions.md R420, R421). -/

namespace Sys2Proof.Machine

/-! ## Pops of bytes that can be read -/

@[simp] theorem State.withSp_withSp (s : State) (p q : Byte) : (s.withSp p).withSp q = s.withSp q := rfl

/-- A pop with SP at `p` reads the byte above `p`, whose value does not depend on SP (R27). -/
theorem pop8_withSp {p v : Byte} {s t : State} (h : memRead (zext16 (p + 1)) s = .ok v t) :
    pop8 (s.withSp p) = .ok v (t.withSp (p + 1)) := by
  rw [pop8, State.withSp_sp, State.withSp_withSp]
  exact memRead_withSp (p + 1) h

/-- A pop of a word with SP at `p` reads the two bytes above `p`, low byte first (R312). -/
theorem popWord_withSp {p lo hi : Byte} {s s1 t : State} (hlo : memRead (zext16 (p + 1)) s = .ok lo s1)
    (hhi : memRead (zext16 (p + 1 + 1)) s1 = .ok hi t) :
    popWord (s.withSp p) = .ok (wordOf hi lo) (t.withSp (p + 1 + 1)) := by
  rw [popWord, pop8_withSp hlo, Res.bind_ok, pop8_withSp hhi, Res.bind_ok]

/-- A pop of a word that answers has read the two bytes above SP. -/
theorem popWord_readable {s t : State} {w : Word} (h : popWord s = .ok w t) :
    readable s.device (zext16 (s.sp + 1)) = true ∧ readable s.device (zext16 (s.sp + 1 + 1)) = true := by
  obtain ⟨lo, s1, hlo, h⟩ := Res.bind_eq_ok.mp h
  obtain ⟨hi, s2, hhi, -⟩ := Res.bind_eq_ok.mp h
  obtain ⟨k, rfl⟩ := pop8_spend hlo
  exact ⟨(memRead_ok hlo).1, (memRead_ok hhi).1⟩

/-- A return from an exception that answers has read the three bytes above SP. -/
theorem returnFromException_readable {s t : State} {u : Unit} (h : returnFromException s = .ok u t) :
    readable s.device (zext16 (s.sp + 1)) = true ∧ readable s.device (zext16 (s.sp + 1 + 1)) = true ∧
      readable s.device (zext16 (s.sp + 1 + 1 + 1)) = true := by
  obtain ⟨psw, s1, hpsw, h⟩ := Res.bind_eq_ok.mp h
  obtain ⟨pc, s2, hpc, -⟩ := Res.bind_eq_ok.mp h
  obtain ⟨k, rfl⟩ := pop8_spend hpsw
  have hword := popWord_readable hpc
  rw [State.spend_sp, State.withSp_sp] at hword
  exact ⟨(memRead_ok hpsw).1, hword⟩

/-! ## RET and RETI -/

/-- RETI pops PSW, then PC low byte first (R313). -/
theorem exec_reti_of_reads {psw lo hi : Byte} {s s1 s2 s3 : State}
    (hpsw : memRead (zext16 (s.sp + 1)) s = .ok psw s1) (hlo : memRead (zext16 (s.sp + 1 + 1)) s1 = .ok lo s2)
    (hhi : memRead (zext16 (s.sp + 1 + 1 + 1)) s2 = .ok hi s3) :
    ∃ t, exec .reti s = .next t ∧
      onlyCpu { s.cpu with sp := s.sp + 1 + 1 + 1, psw := psw, pc := wordOf hi lo } s t := by
  obtain ⟨-, j, rfl⟩ := memRead_ok hpsw
  obtain ⟨-, k, rfl⟩ := memRead_ok hlo
  obtain ⟨-, l, rfl⟩ := memRead_ok hhi
  have hpop : pop8 s = .ok psw ((s.spend j).withSp (s.sp + 1)) := pop8_withSp hpsw
  refine ⟨_, by rw [exec, execReti, returnFromException, hpop, Res.bind_ok, popWord_withSp hlo hhi]; rfl, ?_⟩
  rw [State.spend_spend, State.spend_spend]
  exact onlyCpu_intro _ s _

/-- Settles O43: RET is a pop of a word, RETI a pop of PSW before it; without one of the bytes no pop answers. -/
theorem returns : Obligations.Returns := by
  intro s
  have hsp2 : s.sp + 2 = s.sp + 1 + 1 := by ring
  have hsp3 : s.sp + 3 = s.sp + 1 + 1 + 1 := by ring
  rw [hsp2, hsp3]
  refine ⟨fun lo hi s1 s2 hlo hhi => ?_, fun psw lo hi s1 s2 s3 hpsw hlo hhi => exec_reti_of_reads hpsw hlo hhi,
    fun hr => ⟨done_faults fun t ht => ?_, done_faults fun t ht => ?_⟩, fun hr => done_faults fun t ht => ?_⟩
  · obtain ⟨-, j, rfl⟩ := memRead_ok hlo
    obtain ⟨-, k, rfl⟩ := memRead_ok hhi
    have hpop : popWord s = .ok (wordOf hi lo) (((s.spend j).spend k).withSp (s.sp + 1 + 1)) := popWord_withSp hlo hhi
    refine ⟨_, by rw [exec, execRet, hpop]; rfl, ?_⟩
    rw [State.spend_spend]
    exact onlyCpu_intro _ s _
  · obtain ⟨w, s1, hpop, -⟩ := Res.done_eq_next.mp ht
    obtain ⟨hlo, hhi⟩ := popWord_readable hpop
    rw [hlo, hhi] at hr
    exact hr.elim nofun nofun
  · obtain ⟨u, s1, hret, -⟩ := Res.done_eq_next.mp ht
    obtain ⟨hpsw, hlo, -⟩ := returnFromException_readable hret
    rw [hpsw, hlo] at hr
    exact hr.elim nofun nofun
  · obtain ⟨u, s1, hret, -⟩ := Res.done_eq_next.mp ht
    obtain ⟨-, -, hhi⟩ := returnFromException_readable hret
    rw [hhi] at hr
    cases hr

/-! ## Taking an exception -/

/-- Where the three stack bytes may be written, an exception pushes PC and PSW, changes PSW and takes the vector
(R300, R420); the pushes do not reach the vector. -/
theorem takeException_pushable {image live : Byte} {vector : Word} {s : State} (hlow : 0xFF00 ≤ vector.toNat)
    (hhigh : vector.toNat < 0xFFFF) (hp : pushable 3 s) :
    ∃ t, pushed [hiByte s.pc, loByte s.pc, image] s t ∧ stackedOnly [hiByte s.pc, loByte s.pc, image] s t ∧
      takeException image live vector s = .ok () ((t.withPsw live).withPc (s.vectorAt vector)) := by
  obtain ⟨t, hpush, hpushed, honly⟩ := pushAll_pushable (bytes := [hiByte s.pc, loByte s.pc, image]) (by simp) hp
  refine ⟨t, hpushed, honly, ?_⟩
  rw [takeException_eq, hpush, Res.bind_ok, vectorAt_stacked honly vector hlow hhigh]

theorem takeException_faults {image live : Byte} {vector : Word} {s : State} (hp : ¬ pushable 3 s) :
    ∃ e, takeException image live vector s = .fault e := by
  obtain ⟨e, he⟩ := pushAll_faults (bytes := [hiByte s.pc, loByte s.pc, image]) hp
  exact ⟨e, by rw [takeException_eq, he, Res.bind_fault]⟩

/-- BRK takes an exception through FFDEH, with B set in the byte pushed as `BRK_PUSHED_B` says (R300, D17). -/
theorem exec_brk (s : State) : exec .brk s =
    (takeException (setFlag .b (brkPushedB || flag .b s.psw) s.psw) (setFlag .i false (setFlag .b true s.psw)) 0xFFDE
      s).done fun _ s1 => s1 := rfl

end Sys2Proof.Machine

namespace Sys2Proof

open Machine

/-- Settles O45: BRK is an exception through FFDEH. (`Machine.softwareInterrupt` is the operation of the model.) -/
theorem softwareInterrupt : Obligations.SoftwareInterrupt := by
  refine fun s => ⟨fun hp => ?_, fun hp => ?_⟩
  · obtain ⟨t, hpushed, honly, htaken⟩ := takeException_pushable (vector := 0xFFDE)
      (image := setFlag .b (brkPushedB || flag .b s.psw) s.psw) (live := setFlag .i false (setFlag .b true s.psw))
      (by decide) (by decide) hp
    exact ⟨_, _, t, by rw [flag_setFlag, if_pos rfl]; rfl, flagsKept_setFlag (by simp) (flagsKept_refl _ _), hpushed,
      honly, by rw [exec_brk, htaken]; rfl, by simp, by simp,
      flagsKept_setFlag (by simp) (flagsKept_setFlag (by simp) (flagsKept_refl _ _))⟩
  · obtain ⟨e, he⟩ := takeException_faults hp
    exact ⟨e, by rw [exec_brk, he, Res.done_fault]⟩

end Sys2Proof

namespace Sys2Proof.Machine

/-! ## The CPU's turn -/

/-- A move of the CPU is its turn with the script advanced. -/
theorem step_of_cpuMoves {s : State} {mid : List Event} {rest : List Turn} (h : cpuMoves s mid rest) :
    step s = cpuTurn mid (s.withSchedule rest) := by
  obtain hs | ⟨hs, rfl, rfl⟩ := h
  · simp only [step, oneStep, hs]
  · have hsame : s.withSchedule [] = s := by rw [← hs]; rfl
    simp only [step, oneStep, hs, hsame]

/-- A running CPU with an acceptable source takes it (R415). -/
theorem cpuTurn_accepts {s : State} {src : IntSource} (mid : List Event) (hboot : s.bootPending = false)
    (hclock : s.power.clockHalted = false) (hmode : s.mode = .run) (haccept : acceptable s = some src) :
    cpuTurn mid s = (acceptInterrupt src s).done fun _ s1 => s1 := by
  simp [cpuTurn, hboot, hclock, hmode, haccept]

theorem IntSource.vector_bounds (src : IntSource) : 0xFF00 ≤ src.vector.toNat ∧ src.vector.toNat < 0xFFFF := by
  cases src <;> decide

/-- After a completed acceptance SP is three lower, and the stack bytes in RAM hold PC and PSW (R420, D17, D35). -/
theorem acceptInterrupt_stack {s t : State} {src : IntSource} {u : Unit} (hstack : stackInRam 3 s)
    (h : acceptInterrupt src s = .ok u t) :
    t.sp = s.sp - 3 ∧ ∀ k, k < 3 → t.byteAt (stackByte s k) = [hiByte s.pc, loByte s.pc, s.psw][k]? := by
  obtain ⟨hlow, hhigh⟩ := src.vector_bounds
  obtain ⟨t1, -, ⟨hcpu, -, -, -, hbytes, -⟩, htaken⟩ := takeException_pushable (image := s.psw)
    (live := setFlag .i false s.psw) (s := s.withIrq (src.clear s.irq)) hlow hhigh (pushable_of_inRam hstack)
  rw [acceptInterrupt, htaken] at h
  cases h
  exact ⟨congrArg Cpu.sp hcpu, fun k hk => hbytes k hk (hstack k hk)⟩

theorem flag_i_of_acceptable {s : State} {src : IntSource} (h : acceptable s = some src) : flag .i s.psw = true := by
  by_contra hi
  simp [acceptable, hi] at h

theorem onlyCpu.cpu_eq {c : Cpu} {s t : State} (h : onlyCpu c s t) : t.cpu = c := by
  obtain ⟨⟨k, rfl⟩, -⟩ := h
  rfl

/-- A read of a RAM byte that is known. -/
theorem memRead_of_byteAt {a : Word} {v : Byte} {s : State} (hram : inRam a) (h : s.byteAt a = some v) :
    memRead a s = .ok v s := by
  rw [memRead_ram hram, Option.some.inj ((s.byteAt_ram hram).symm.trans h)]

/-- Settles O48: SP of the handler is three below SP of the interrupted program, so RETI pops what acceptance pushed. -/
theorem acceptThenReturn : Obligations.AcceptThenReturn := by
  intro s t h src mid rest hboot hclock hmode haccept hmoves hstack hstep hsp hbytes
  rw [step_of_cpuMoves hmoves, cpuTurn_accepts (s := s.withSchedule rest) mid hboot hclock hmode haccept] at hstep
  obtain ⟨_, _, htaken, rfl⟩ := Res.done_eq_next.mp hstep
  obtain ⟨hspt, hpushed⟩ := acceptInterrupt_stack (s := s.withSchedule rest) hstack htaken
  have hhandler : h.sp = s.sp - 3 := hsp.trans hspt
  have hread (k : Nat) (hk : k < 3) {v : Byte} (hv : [hiByte s.pc, loByte s.pc, s.psw][k]? = some v) {a : Word}
      (ha : a = stackByte s k) : memRead a h = .ok v h :=
    ha ▸ memRead_of_byteAt (hstack k hk) ((hbytes k hk).trans ((hpushed k hk).trans hv))
  have hsp1 : h.sp + 1 = s.sp - 2 := by rw [hhandler]; ring
  have hsp2 : h.sp + 1 + 1 = s.sp - 1 := by rw [hhandler]; ring
  have hsp3 : h.sp + 1 + 1 + 1 = s.sp := by rw [hhandler]; ring
  obtain ⟨u, hexec, honly⟩ := exec_reti_of_reads (s := h) (hread 2 (by simp) rfl (by rw [hsp1]; rfl))
    (hread 1 (by simp) rfl (by rw [hsp2]; rfl)) (hread 0 (by simp) rfl (by rw [hsp3]; simp [stackByte]))
  rw [hsp3, wordOf_bytes] at honly
  have hpsw : u.psw = s.psw := congrArg Cpu.psw honly.cpu_eq
  exact ⟨u, hexec, honly, hpsw ▸ flag_i_of_acceptable haccept⟩

end Sys2Proof.Machine
end

section
/-! STOP, and the release of a power-saving mode (spec/60_exceptions.md R435 to R438, R442). -/

namespace Sys2Proof.Machine

/-! ## The sources that release a mode -/

section Release

variable {s : State}

/-- The release sources of a mode are those the rules name (R435, R437). -/
theorem mem_releaseSources {src : IntSource} :
    src ∈ releaseSources s ↔ releasesMode s.mode s.clock.wdton src := by
  unfold releaseSources releasesMode
  cases hm : s.mode with
  | run | stop | wakeupTimer => simp
  | rcWdt => cases hw : s.clock.wdton <;> simp

/-- A request with its enable bit at 1 releases the mode (R437). -/
theorem releaseDecision_pending (h : ∃ src, releasesMode s.mode s.clock.wdton src ∧ src.requested s.irq = true ∧
    src.enabled s.irq = true) : releaseDecision s = (true, s) := by
  obtain ⟨src, hsrc, hreq, hen⟩ := h
  rw [releaseDecision, if_pos]
  exact List.any_eq_true.mpr ⟨src, mem_releaseSources.mpr hsrc, by simp [IntSource.pending, hreq, hen]⟩

/-- Requests without their enable bits are not pending. -/
theorem releaseSources_not_pending (h : ∀ src, releasesMode s.mode s.clock.wdton src → src.requested s.irq = true →
    src.enabled s.irq = false) : (releaseSources s).any (fun src => src.pending s.irq) = false := by
  refine List.any_eq_false.mpr fun src hsrc hp => ?_
  obtain ⟨hreq, hen⟩ := Bool.and_eq_true_iff.mp hp
  rw [h src (mem_releaseSources.mp hsrc) hreq] at hen
  cases hen

/-- Without a request the mode is not released. -/
theorem releaseDecision_unrequested (h : ∀ src, releasesMode s.mode s.clock.wdton src → src.requested s.irq = false) :
    releaseDecision s = (false, s) := by
  have hreq : (releaseSources s).any (fun src => src.requested s.irq) = false :=
    List.any_eq_false.mpr fun src hsrc => by simp [h src (mem_releaseSources.mp hsrc)]
  have hpending := releaseSources_not_pending (s := s) fun src hsrc hr => absurd hr (by simp [h src hsrc])
  rw [releaseDecision, if_neg (by simp [hpending]), if_neg (by simp [hreq])]

/-- A request whose enable bit is 0 releases the mode as `STOP_WAKE_NEEDS_IEN` says (log entry 9). -/
theorem releaseDecision_disabled {needs : Bool} (hneeds : Config.stopWakeNeedsIen = some needs)
    (hreq : ∃ src, releasesMode s.mode s.clock.wdton src ∧ src.requested s.irq = true)
    (hen : ∀ src, releasesMode s.mode s.clock.wdton src → src.requested s.irq = true → src.enabled s.irq = false) :
    releaseDecision s = (!needs, s) := by
  obtain ⟨src, hsrc, hr⟩ := hreq
  have hany : (releaseSources s).any (fun src => src.requested s.irq) = true :=
    List.any_eq_true.mpr ⟨src, mem_releaseSources.mpr hsrc, hr⟩
  rw [releaseDecision, if_neg (by simp [releaseSources_not_pending hen]), if_pos hany, hneeds]

end Release

/-! ## STOP -/

section Stop

variable (s : State)

/-- STOP leaves the mode at once where it is released already, and else stays in it. -/
theorem exec_stop {b : Bool} (h : releaseDecision (s.withMode (powerSavingMode s.clock)) =
    (b, s.withMode (powerSavingMode s.clock))) :
    exec .stop s = .next (s.withMode (if b then .run else powerSavingMode s.clock)) := by
  rw [exec, execStop, enterPowerSaving, h]
  cases b <;> rfl

/-- STOP completes and changes the run mode only, free values used (R314, R436, R437). -/
theorem exec_stop_answers : ∃ t, exec .stop s = .next t ∧ (t.mode = powerSavingMode s.clock ∨ t.mode = .run) ∧
    t.cpu = s.cpu ∧ t.irq = s.irq ∧ t.mem = s.mem := by
  obtain ⟨k, hk⟩ := releaseDecision_state (s.withMode (powerSavingMode s.clock))
  refine ⟨_, rfl, ?_⟩
  simp only [enterPowerSaving, hk]
  split
  · exact ⟨.inr rfl, rfl, rfl, rfl⟩
  · exact ⟨.inl rfl, rfl, rfl, rfl⟩

end Stop

/-! ## The wake-up -/

/-- Raising a source sets its request flag and keeps the others (R407). -/
theorem IntSource.requested_raise (src raised : IntSource) (q : Interrupts) :
    src.requested (raised.raise q) = (src.requested q || decide (src = raised)) := by
  cases raised <;> cases src <;> simp [IntSource.requested, IntSource.raise]

theorem IntSource.requested_raise_of {src : IntSource} (raised : IntSource) {q : Interrupts}
    (h : src.requested q = true) : src.requested (raised.raise q) = true := by
  simp [IntSource.requested_raise, h]

/-- `t` is `s` back in Run with a restarted oscillator, before the watchdog counts the overflow: BITR is 00H, and BITIF
may have been set (R438, log entry 28). -/
structure Resumed (s t : State) : Prop where
  mode : t.mode = .run
  cpu : t.cpu = s.cpu
  byteAt : ∀ a, t.byteAt a = s.byteAt a
  clock : t.clock = { s.clock with bitr := 0 }
  requests : ∀ src : IntSource, src.requested s.irq = true → src.requested t.irq = true
  vector : ∀ a, t.vectorAt a = s.vectorAt a

section Wake

variable {s : State}

/-- A wake-up that restarts the oscillator is one count of the watchdog. -/
theorem wake_resumed (h : s.mode = .stop ∨ s.mode = .rcWdt) : ∃ t, Resumed s t ∧ wake s = watchdogTick [] t := by
  obtain e | e := wake_counts h
  · refine ⟨_, ?_, e⟩
    exact ⟨rfl, rfl, fun _ => rfl, rfl, fun _ hr => hr, fun _ => rfl⟩
  · refine ⟨_, ?_, e⟩
    exact ⟨rfl, rfl, fun _ => rfl, rfl, fun _ hr => IntSource.requested_raise_of .basicInterval hr, fun _ => rfl⟩

/-- The watchdog counts an overflow that is no match. -/
theorem watchdogTick_counts {torn : Torn} (h : s.clock.wdtcnt + 1 ≠ s.clock.wdtr) :
    watchdogTick torn s = s.withClock s.clock.countOverflow := if_neg h

/-- The watchdog counts an overflow that is a match. -/
theorem watchdogTick_matches {torn : Torn} (h : s.clock.wdtcnt + 1 = s.clock.wdtr) :
    watchdogTick torn s = watchdogMatch torn s := if_pos h

/-- The clock unit after a wake-up that restarts the oscillator and does not reset (R438, R442, log entry 44). -/
def ClockUnit.afterWake (c : ClockUnit) : ClockUnit :=
  { c with
    bitr := 0, wdtcnt := if c.wdtcnt + 1 = c.wdtr then 0 else c.wdtcnt + 1,
    wdtWrapped := decide (c.wdtcnt + 1 ≠ c.wdtr) && (c.wdtWrapped || decide (c.wdtcnt = 0x7F)) }

theorem ClockUnit.afterWake_match {c : ClockUnit} (h : c.wdtcnt + 1 = c.wdtr) :
    c.afterWake = ClockUnit.clearWatchdog { c with bitr := 0 } := by
  rw [ClockUnit.afterWake, if_pos h, decide_eq_false (not_not_intro h)]
  rfl

theorem ClockUnit.afterWake_count {c : ClockUnit} (h : c.wdtcnt + 1 ≠ c.wdtr) :
    c.afterWake = ClockUnit.countOverflow { c with bitr := 0 } := by
  rw [ClockUnit.afterWake, if_neg h, decide_eq_true h]
  rfl

/-- A wake-up that restarts the oscillator and does not reset: at a match WDTIF is set (R438, R442). -/
theorem wake_answers (h : s.mode = .stop ∨ s.mode = .rcWdt)
    (hreset : s.clock.wdton = false ∨ s.clock.wdtcnt + 1 ≠ s.clock.wdtr) :
    (wake s).mode = .run ∧ (wake s).cpu = s.cpu ∧ (∀ a, (wake s).byteAt a = s.byteAt a) ∧
      (∀ src : IntSource, src.requested s.irq = true → src.requested (wake s).irq = true) ∧
      (wake s).clock = s.clock.afterWake ∧
      (s.clock.wdtcnt + 1 = s.clock.wdtr → IntSource.watchdog.requested (wake s).irq = true) := by
  obtain ⟨t, ⟨hmode, hcpu, hbytes, hclock, hreq, -⟩, hwake⟩ := wake_resumed h
  rw [hwake]
  by_cases hmatch : s.clock.wdtcnt + 1 = s.clock.wdtr
  · have hwdton : t.clock.wdton = false := by
      rw [hclock]
      exact hreset.resolve_right (not_not_intro hmatch)
    rw [watchdogTick_matches (by rw [hclock]; exact hmatch), watchdogMatch_requests [] hwdton]
    exact ⟨hmode, hcpu, hbytes, fun src hr => IntSource.requested_raise_of _ (hreq src hr),
      by rw [ClockUnit.afterWake_match hmatch, ← hclock]; rfl, fun _ => by simp [IntSource.requested_raise]⟩
  · rw [watchdogTick_counts (by rw [hclock]; exact hmatch)]
    exact ⟨hmode, hcpu, hbytes, hreq, by rw [ClockUnit.afterWake_count hmatch, ← hclock]; rfl,
      fun hm => absurd hm hmatch⟩

/-- A wake-up whose overflow is the match of a watchdog with WDTON = 1 is a reset that cuts no instruction short
(R438, R442). -/
theorem wake_resets (h : s.mode = .stop ∨ s.mode = .rcWdt) (hwdton : s.clock.wdton = true)
    (hmatch : s.clock.wdtcnt + 1 = s.clock.wdtr) :
    (wake s).mode = .run ∧ (wake s).pc = s.vectorAt 0xFFFE ∧ (wake s).clock = State.reset.clock ∧
      ∀ a, (wake s).byteAt a = s.byteAt a := by
  obtain ⟨t, ⟨-, -, hbytes, hclock, -, hvector⟩, hwake⟩ := wake_resumed h
  rw [hwake, watchdogTick_matches (by rw [hclock]; exact hmatch), watchdogMatch_resets [] (by rw [hclock]; exact hwdton)]
  exact ⟨rfl, hvector _, rfl, hbytes⟩

/-- A wake-up ends in Run, by a reset too. -/
theorem wake_mode (s : State) : (wake s).mode = .run := by
  cases hm : s.mode with
  | run | wakeupTimer => simp [wake, hm]
  | stop | rcWdt =>
    have h : s.mode = .stop ∨ s.mode = .rcWdt := by simp [hm]
    by_cases hreset : s.clock.wdton = false ∨ s.clock.wdtcnt + 1 ≠ s.clock.wdtr
    · exact (wake_answers h hreset).1
    · push Not at hreset
      exact (wake_resets h (by simpa using hreset.1) hreset.2).1

/-! ## The stopped CPU -/

/-- The turn of a stopped CPU is a wake-up where the mode is released, and else nothing (R437, R438). -/
theorem cpuTurn_stopped {b : Bool} (mid : List Event) (hmode : s.mode ≠ .run) (hboot : s.bootPending = false)
    (hclock : s.power.clockHalted = false) (h : releaseDecision s = (b, s)) :
    cpuTurn mid s = .next (if b then wake s else s) := by
  cases b <;> simp [cpuTurn, hboot, hclock, hmode, h]

end Wake

/-- Settles O50: STOP and the stopped CPU's turn both go by the decision on release; a wake-up is one count of the
watchdog. -/
theorem stopAndRelease : Obligations.StopAndRelease := by
  refine ⟨fun s => ⟨fun hq => ?_, fun hp => ?_, exec_stop_answers s⟩, fun s mid rest hmode hboot hclock hmoves => ?_⟩
  · exact exec_stop s (releaseDecision_unrequested (s := s.withMode (powerSavingMode s.clock)) hq)
  · exact exec_stop s (releaseDecision_pending (s := s.withMode (powerSavingMode s.clock)) hp)
  · have hturn {b : Bool} (h : releaseDecision (s.withSchedule rest) = (b, s.withSchedule rest)) :
        step s = .next (if b then wake (s.withSchedule rest) else s.withSchedule rest) := by
      rw [step_of_cpuMoves hmoves, cpuTurn_stopped (s := s.withSchedule rest) mid hmode hboot hclock h]
    have hstopped (hw : s.mode ≠ .wakeupTimer) : s.mode = .stop ∨ s.mode = .rcWdt := by
      cases hm : s.mode <;> simp_all
    refine ⟨fun hp => ?_, fun hq => hturn (releaseDecision_unrequested (s := s.withSchedule rest) hq),
      fun needs hneeds hreq hen => ?_⟩
    · have hstep := hturn (releaseDecision_pending (s := s.withSchedule rest) hp)
      refine ⟨fun hw => ?_, fun hw hreset => ⟨_, hstep, wake_answers (s := s.withSchedule rest) (hstopped hw) hreset⟩,
        fun hw hwdton hmatch => ⟨_, hstep, wake_resets (s := s.withSchedule rest) (hstopped hw) hwdton hmatch⟩⟩
      rw [hstep, if_pos rfl, wake, State.withSchedule_mode, hw]
    · have hstep := hturn (releaseDecision_disabled (s := s.withSchedule rest) hneeds hreq hen)
      refine ⟨_, hstep, ?_⟩
      cases needs
      · simp [wake_mode]
      · simpa using hmode

end Sys2Proof.Machine
end

section
/-! The stopped CPU (spec/60_exceptions.md R435, R436, R492): neither its turn nor an event that is no reset changes a CPU
register or a byte of memory, and with the oscillator stopped timers, buzzer and A/D converter rest. -/

namespace Sys2Proof.Machine

/-- Timers, buzzer and A/D converter are as they were. -/
structure CountersRest (s t : State) : Prop where
  timers : t.timers = s.timers
  buzzer : t.buzzer = s.buzzer
  adc : t.adc = s.adc

theorem CountersRest.refl (s : State) : CountersRest s s := ⟨rfl, rfl, rfl⟩

theorem CountersRest.trans {s t u : State} (h : CountersRest s t) (h' : CountersRest t u) : CountersRest s u :=
  ⟨h'.timers.trans h.timers, h'.buzzer.trans h.buzzer, h'.adc.trans h.adc⟩

/-- What a stopped CPU's next state keeps: CPU registers and memory always, the counters where the oscillator has
stopped; the mode stays or returns to Run. -/
structure Dormant (s t : State) : Prop where
  cpu : t.cpu = s.cpu
  byteAt : ∀ a, t.byteAt a = s.byteAt a
  mode : t.mode = s.mode ∨ t.mode = .run
  rest : s.mode = .stop ∨ s.mode = .rcWdt → CountersRest s t

section Events

variable {s : State}

/-! ## The watchdog -/

/-- A count of the watchdog that does not reset changes the clock unit and a request flag. -/
theorem watchdogTick_rest (torn : Torn) (h : s.clock.wdton = false ∨ s.clock.wdtcnt + 1 ≠ s.clock.wdtr) :
    CountersRest s (watchdogTick torn s) := by
  by_cases hmatch : s.clock.wdtcnt + 1 = s.clock.wdtr
  · have hwdton : s.clock.wdton = false := h.resolve_right (not_not_intro hmatch)
    rw [watchdogTick_matches hmatch, watchdogMatch_requests torn hwdton]
    exact ⟨rfl, rfl, rfl⟩
  · rw [watchdogTick_counts hmatch]
    exact ⟨rfl, rfl, rfl⟩

theorem bitTick_rest (torn : Torn) (h : (Event.bitClock torn).disrupts s = false) :
    CountersRest s (bitTick torn s) := by
  unfold bitTick
  split
  case isTrue hff =>
    have hcount : s.clock.wdton = false ∨ s.clock.wdtcnt + 1 ≠ s.clock.wdtr := by
      simp only [Event.disrupts, hff] at h
      by_cases hmatch : s.clock.wdtcnt + 1 = s.clock.wdtr
      · exact .inl (by simpa only [hmatch, beq_self_eq_true, Bool.true_and] using h)
      · exact .inr hmatch
    exact CountersRest.trans (t := (s.withClock { s.clock with bitr := 0 }).request .basicInterval) ⟨rfl, rfl, rfl⟩
      (watchdogTick_rest torn hcount)
  case isFalse => exact ⟨rfl, rfl, rfl⟩

/-! ## Pins -/

theorem ec0Enabled_stopped (h : s.mode ≠ .run) : ec0Enabled s = false := by simp [ec0Enabled, h]

theorem int0Edge_stopped (h : s.mode ≠ .run) : int0Edge s = s.request .int0 := by simp [int0Edge, h]

theorem int1Edge_stopped (h : s.mode ≠ .run) : int1Edge s = s.request .int1 := by simp [int1Edge, h]

/-- While the CPU is stopped an edge raises its request and captures nothing (R409, R490). -/
theorem serveEdges_rest (int0 int1 : Bool) (h : s.mode ≠ .run) : CountersRest s (serveEdges false int0 int1 s) := by
  have hint0 : CountersRest s (if int0 then int0Edge s else s) ∧ (if int0 then int0Edge s else s).mode ≠ .run := by
    cases int0
    · exact ⟨.refl s, h⟩
    · rw [if_pos rfl, int0Edge_stopped h]
      exact ⟨⟨rfl, rfl, rfl⟩, h⟩
  obtain ⟨hrest, hmode⟩ := hint0
  cases int1
  · exact hrest
  · refine hrest.trans ?_
    simp only [serveEdges, Bool.false_eq_true, if_false, if_true]
    rw [int1Edge_stopped hmode]
    exact ⟨rfl, rfl, rfl⟩

theorem pinsEvent_rest (ra : Byte) (rb : BitVec 5) (rc : BitVec 2) (rd : BitVec 4) (h : s.mode ≠ .run) :
    CountersRest s (pinsEvent ra rb rc rd s) := by
  rw [pinsEvent, ec0Enabled_stopped h]
  exact CountersRest.trans (t := takeLevels ra rb rc rd s) ⟨rfl, rfl, rfl⟩ (serveEdges_rest _ _ h)

/-! ## All events -/

/-- With the oscillator stopped no event but a reset moves a counter (R435, R531). -/
theorem fireEvent_rest (e : Event) (hmode : s.mode = .stop ∨ s.mode = .rcWdt) (he : e.disrupts s = false) :
    CountersRest s (fireEvent e s) := by
  have hrun : s.mode ≠ .run := by obtain h | h := hmode <;> simp [h]
  have hwake : s.mode ≠ .wakeupTimer := by obtain h | h := hmode <;> simp [h]
  unfold fireEvent
  split
  · cases e with
    | supplyRecovers | resetPin _ | resetPowerOn => cases he
    | _ => exact .refl s
  · cases e with
    | bitClock torn =>
      simp only [fireRunning]
      split
      · exact bitTick_rest torn he
      · exact .refl s
    | watchdogMatch torn =>
      simp only [fireRunning]
      split
      case isTrue hd =>
        rw [watchdogMatch_requests torn (by simpa [Event.disrupts, hd.1] using he)]
        exact ⟨rfl, rfl, rfl⟩
      case isFalse => exact .refl s
    | t0Clock =>
      have hclock : t0ClockEnabled s = false := by simp [t0ClockEnabled, hrun, hwake]
      simpa [fireRunning, hclock] using CountersRest.refl s
    | t1Clock =>
      have hclock : t1ClockEnabled s = false := by simp [t1ClockEnabled, hrun]
      simpa [fireRunning, hclock] using CountersRest.refl s
    | buzClock => simpa [fireRunning, hrun] using CountersRest.refl s
    | adcDone result => simpa [fireRunning, hrun] using CountersRest.refl s
    | pins ra rb rc rd => exact pinsEvent_rest ra rb rc rd hrun
    | powerFail _ | supplyRecovers | resetPin _ | resetPowerOn => cases he

theorem fireEvent_supplyRecovers : fireEvent .supplyRecovers s = supplyRecovered s := by
  unfold fireEvent
  split <;> rfl

/-- An event that is no reset and no power failure leaves a stopped CPU dormant. -/
theorem fireEvent_dormant {e : Event} (he : e = .supplyRecovers ∨ e.disrupts s = false) :
    Dormant s (fireEvent e s) := by
  obtain rfl | he := he
  · rw [fireEvent_supplyRecovers]
    exact ⟨rfl, fun _ => rfl, .inl rfl, fun _ => ⟨rfl, rfl, rfl⟩⟩
  · have hquiet := quiet_fireEvent e s he
    have ⟨hcpu, _, hmode, _⟩ := hquiet
    exact ⟨hcpu, quiet_byteAt hquiet, .inl hmode, fun hm => fireEvent_rest e hm he⟩

/-! ## The CPU's turn -/

/-- A wake-up that does not reset leaves the machine dormant but for the mode (R438). -/
theorem wake_dormant (h : s.mode = .wakeupTimer ∨ s.clock.wdton = false ∨ s.clock.wdtcnt + 1 ≠ s.clock.wdtr) :
    Dormant s (wake s) := by
  by_cases hm : s.mode = .stop ∨ s.mode = .rcWdt
  · have hreset : s.clock.wdton = false ∨ s.clock.wdtcnt + 1 ≠ s.clock.wdtr :=
      h.resolve_left fun hw => by simp [hw] at hm
    obtain ⟨-, hcpu, hbytes, -⟩ := wake_answers hm hreset
    refine ⟨hcpu, hbytes, .inr (wake_mode s), fun _ => ?_⟩
    obtain e | e := wake_counts hm
    all_goals
      rw [e]
      refine CountersRest.trans ?_ (watchdogTick_rest [] hreset)
      exact ⟨rfl, rfl, rfl⟩
  · have hwake : wake s = s.withMode .run := by
      unfold wake
      split <;> simp_all
    rw [hwake]
    exact ⟨rfl, fun _ => rfl, .inr rfl, fun hm' => absurd hm' hm⟩

/-- The turn of a stopped CPU, whatever it decides on its release, leaves it dormant. -/
theorem cpuTurn_dormant (mid : List Event) (hmode : s.mode ≠ .run) (hboot : s.bootPending = false)
    (hreset : s.mode = .wakeupTimer ∨ s.clock.wdton = false ∨ s.clock.wdtcnt + 1 ≠ s.clock.wdtr) :
    ∃ t, cpuTurn mid s = .next t ∧ Dormant s t := by
  obtain ⟨k, hk⟩ := releaseDecision_state s
  simp only [cpuTurn, hboot, hmode, hk, Bool.false_eq_true, if_false]
  split
  · exact ⟨s, rfl, rfl, fun _ => rfl, .inl rfl, fun _ => .refl s⟩
  split
  · obtain ⟨hcpu, hbytes, -, hrest⟩ := wake_dormant (s := s.spend k) hreset
    exact ⟨_, rfl, hcpu, hbytes, .inr (wake_mode _), fun hm =>
      CountersRest.trans (t := s.spend k) ⟨rfl, rfl, rfl⟩ (hrest hm)⟩
  · exact ⟨_, rfl, rfl, fun _ => rfl, .inl rfl, fun _ => ⟨rfl, rfl, rfl⟩⟩

end Events

/-! ## The step -/

/-- A move of the environment is its event, with the script advanced. -/
theorem step_of_event {s : State} {e : Event} {rest : List Turn} (h : s.schedule = .env e :: rest) :
    step s = .next (fireEvent (e.admitted s) (s.withSchedule rest)) := by simp only [step, oneStep, h]

/-- The bytes a reset may leave open and the rest of the script do not decide whether an event disrupts. -/
theorem Event.disrupts_admitted (e : Event) (s : State) (rest : List Turn) :
    (e.admitted s).disrupts (s.withSchedule rest) = e.disrupts s := by
  cases e <;> rfl

/-- Settles O49, by the move the step makes: the environment's or the stopped CPU's. -/
theorem stoppedCpuChangesNothing : Obligations.StoppedCpuChangesNothing := by
  intro s hmode hboot henv hcpu
  have hdormant : ∃ rest t, step s = .next t ∧ Dormant (s.withSchedule rest) t := by
    have hturn {mid : List Event} {rest : List Turn} (hmoves : cpuMoves s mid rest) :
        ∃ rest t, step s = .next t ∧ Dormant (s.withSchedule rest) t := by
      obtain ⟨t, hstep, ht⟩ := cpuTurn_dormant (s := s.withSchedule rest) mid hmode hboot (hcpu mid rest hmoves)
      exact ⟨rest, t, by rw [step_of_cpuMoves hmoves, hstep], ht⟩
    cases hs : s.schedule with
    | nil => exact hturn (.inr ⟨hs, rfl, rfl⟩)
    | cons turn rest =>
      cases turn with
      | cpu mid => exact hturn (.inl hs)
      | env e =>
        refine ⟨rest, fireEvent (e.admitted s) (s.withSchedule rest), step_of_event hs, fireEvent_dormant ?_⟩
        rw [Event.disrupts_admitted]
        exact (henv e rest hs).imp_left fun he => by rw [he]; rfl
  obtain ⟨rest, t, hstep, hkept, hbytes, hm, hrest⟩ := hdormant
  exact ⟨t, hstep, hkept, hbytes, hm, fun h => ⟨(hrest h).timers, (hrest h).buzzer, (hrest h).adc⟩⟩

end Sys2Proof.Machine
end

section
/-! The choice of an interrupt by priority and its acceptance (spec/60_exceptions.md R410, R415, R416, R420). -/

namespace Sys2Proof.Machine

/-! ## Priorities -/

/-- Each source stands in the list at the place its priority says (R410). -/
theorem IntSource.exists_place (src : IntSource) :
    ∃ k, ∃ h : k < IntSource.byPriority.length, IntSource.byPriority[k] = src ∧ src.priority = k + 1 := by
  cases src with
  | int0 => exact ⟨0, by decide, rfl, rfl⟩
  | int1 => exact ⟨1, by decide, rfl, rfl⟩
  | timer0 => exact ⟨2, by decide, rfl, rfl⟩
  | timer1 => exact ⟨3, by decide, rfl, rfl⟩
  | adc => exact ⟨4, by decide, rfl, rfl⟩
  | watchdog => exact ⟨5, by decide, rfl, rfl⟩
  | basicInterval => exact ⟨6, by decide, rfl, rfl⟩

theorem IntSource.priority_getElem {k : Nat} (h : k < IntSource.byPriority.length) :
    IntSource.byPriority[k].priority = k + 1 := by
  have : ∀ k : Fin 7, (IntSource.byPriority[k]).priority = k + 1 := by decide
  exact this ⟨k, h⟩

/-- The source found is pending, and none of higher priority is (R416). -/
theorem highestPending_eq_some {q : Interrupts} {src : IntSource} : highestPending q = some src ↔
    src.pending q = true ∧ ∀ other : IntSource, other.priority < src.priority → other.pending q = false := by
  rw [highestPending, List.find?_eq_some_iff_getElem]
  refine and_congr_right fun _ => ⟨?_, fun hnone => ?_⟩
  · rintro ⟨k, hk, rfl, hbefore⟩ other hlt
    obtain ⟨j, hj, rfl, -⟩ := other.exists_place
    rw [IntSource.priority_getElem hj, IntSource.priority_getElem hk] at hlt
    simpa using hbefore j (by omega)
  · obtain ⟨k, hk, hsrc, hpriority⟩ := src.exists_place
    refine ⟨k, hk, hsrc, fun j hj => ?_⟩
    have hlt : IntSource.byPriority[j].priority < src.priority := by
      rw [IntSource.priority_getElem, hpriority]
      omega
    simp [hnone _ hlt]

theorem IntSource.pending_iff {src : IntSource} {q : Interrupts} :
    src.pending q = true ↔ src.requested q = true ∧ src.enabled q = true := Bool.and_eq_true_iff

/-- What the acceptance test accepts (R415, R416). -/
theorem acceptable_eq_some {s : State} {src : IntSource} : acceptable s = some src ↔
    flag .i s.psw = true ∧ src.pending s.irq = true ∧
      ∀ other : IntSource, other.priority < src.priority → other.pending s.irq = false := by
  rw [acceptable, ← highestPending_eq_some]
  cases flag .i s.psw <;> simp

/-! ## Acceptance -/

/-- Clearing the request flag of a source keeps the others (R407). -/
theorem IntSource.requested_clear (src cleared : IntSource) (q : Interrupts) :
    src.requested (cleared.clear q) = (src.requested q && decide (src ≠ cleared)) := by
  cases cleared <;> cases src <;> simp [IntSource.requested, IntSource.clear]

/-- An acceptance whose three stack bytes may be written (R420, D17, D35). -/
theorem acceptInterrupt_pushable (src : IntSource) {s : State} (hp : pushable 3 s) :
    ∃ t, pushed [hiByte s.pc, loByte s.pc, s.psw] (s.withIrq (src.clear s.irq)) t ∧
      stackedOnly [hiByte s.pc, loByte s.pc, s.psw] (s.withIrq (src.clear s.irq)) t ∧
      acceptInterrupt src s = .ok () ((t.withPsw (setFlag .i false s.psw)).withPc (s.vectorAt src.vector)) := by
  obtain ⟨hlow, hhigh⟩ := src.vector_bounds
  exact takeException_pushable (s := s.withIrq (src.clear s.irq)) hlow hhigh hp

/-- Settles O46: the sources are searched in the order of their priorities, and pushes to RAM reach no request flag. -/
theorem interruptPriority : Obligations.InterruptPriority := by
  refine ⟨fun s src => ?_, fun s hi => by simp [acceptable, hi], fun s src hstack => ?_⟩
  · rw [acceptable_eq_some, IntSource.pending_iff, and_assoc]
    simp only [← IntSource.pending_iff, Bool.not_eq_true]
  · obtain ⟨t, -, ⟨-, -, -, -, -, hperipherals⟩, htaken⟩ := acceptInterrupt_pushable src (pushable_of_inRam hstack)
    have hirq : t.irq = src.clear s.irq := congrArg Peripherals.irq (hperipherals hstack)
    refine ⟨_, htaken, by simp, ?_, fun other hother => ?_⟩
    · simp [hirq, IntSource.requested_clear]
    · simp [hirq, IntSource.requested_clear, hother]

/-- Settles O47: the CPU's turn is the acceptance, an exception through the source's vector. -/
theorem interruptAcceptance : Obligations.InterruptAcceptance := by
  intro s src mid rest hboot hclock hmode haccept hmoves
  have hstep : step s = (acceptInterrupt src (s.withSchedule rest)).done fun _ s1 => s1 := by
    rw [step_of_cpuMoves hmoves, cpuTurn_accepts (s := s.withSchedule rest) mid hboot hclock hmode haccept]
  refine ⟨fun hp => ?_, fun hp => ?_⟩
  · obtain ⟨t, hpushed, honly, htaken⟩ := acceptInterrupt_pushable src (s := s.withSchedule rest) hp
    exact ⟨setFlag .i false s.psw, t, hpushed, honly, by rw [hstep, htaken]; rfl, by simp,
      flagsKept_setFlag (by simp) (flagsKept_refl _ _)⟩
  · obtain ⟨e, he⟩ := takeException_faults (image := s.psw) (live := setFlag .i false s.psw) (vector := src.vector)
      (s := (s.withSchedule rest).withIrq (src.clear s.irq)) hp
    have hfault : acceptInterrupt src (s.withSchedule rest) = .fault e := he
    exact ⟨e, by rw [hstep, hfault, Res.done_fault]⟩

end Sys2Proof.Machine
end

section
/-! Resets from the pin and the supply, and the RAM bytes a step may change (spec/60_exceptions.md R430, R439,
spec/70_reset_and_hazards.md R550 to R557). -/

namespace Sys2Proof.Machine

/-! ## RAM bytes an event keeps -/

/-- The RAM bytes outside `torn` are as they were. -/
def ramKeptBut (torn : Torn) (s t : State) : Prop :=
  ∀ a : Word, (∀ c ∈ torn, c.1.toNat ≠ a.toNat) → t.ramByte a = s.ramByte a

/-- The RAM bytes an event may leave open, if it resets (R557). -/
def Event.torn : Event → Torn
  | .bitClock torn | .watchdogMatch torn | .powerFail torn | .resetPin torn => torn
  | .t0Clock | .t1Clock | .buzClock | .adcDone _ | .pins .. | .supplyRecovers | .resetPowerOn => []

theorem writeTorn_read_other (torn : Torn) (m : Memory) {j : Nat} (h : ∀ c ∈ torn, c.1.toNat ≠ j) :
    Memory.read (writeTorn torn m) j = Memory.read m j := by
  induction torn generalizing m with
  | nil => rfl
  | cons c rest ih =>
    rw [writeTorn, ih _ fun d hd => h d (List.mem_cons_of_mem _ hd),
      Memory.read_write_other _ _ (h c List.mem_cons_self).symm]

/-- Fields other than memory and the count of power-ons do not show in the RAM. -/
theorem ramKeptBut_of_fields {torn : Torn} {s t : State} (hm : t.mem = s.mem) (hp : t.powerCycle = s.powerCycle) :
    ramKeptBut torn s t := fun a _ => by rw [State.ramByte, State.ramByte, hm, hp]

theorem ramKeptBut.trans {torn : Torn} {s t u : State} (h : ramKeptBut torn s t) (h' : ramKeptBut torn t u) :
    ramKeptBut torn s u := fun a ha => (h' a ha).trans (h a ha)

theorem quiet.ramKeptBut {torn : Torn} {s t : State} (h : quiet s t) : ramKeptBut torn s t := by
  obtain ⟨-, hmem, -, -, -, -, -, -, hcycle⟩ := h
  exact ramKeptBut_of_fields hmem hcycle

/-- A reset that is no power-on keeps the RAM but for the torn bytes (R557). -/
theorem performReset_ramKeptBut (cause : ResetCause) (hcause : cause ≠ .powerOn) (torn : Torn) (s : State) :
    ramKeptBut torn s (performReset cause torn s) := by
  intro a ha
  cases cause with
  | powerOn => exact absurd rfl hcause
  | pin | watchdog | powerFail =>
    exact congrArg (fun v : Option Byte => v.getD (Config.powerOnByte s.powerCycle a.toNat))
      (writeTorn_read_other torn s.mem ha)

section Events

variable (s : State) (torn : Torn)

theorem watchdogMatch_ramKeptBut : ramKeptBut torn s (watchdogMatch torn s) := by
  cases hw : s.clock.wdton with
  | false => exact (quiet_watchdogMatch torn hw).ramKeptBut
  | true =>
    rw [watchdogMatch_resets torn hw]
    exact performReset_ramKeptBut .watchdog nofun torn s

theorem bitTick_ramKeptBut : ramKeptBut torn s (bitTick torn s) := by
  unfold bitTick watchdogTick
  split
  · split
    · exact ramKeptBut.trans (t := (s.withClock { s.clock with bitr := 0 }).request .basicInterval)
        (ramKeptBut_of_fields rfl rfl) (watchdogMatch_ramKeptBut _ torn)
    · exact ramKeptBut_of_fields rfl rfl
  · exact ramKeptBut_of_fields rfl rfl

theorem powerFailEvent_ramKeptBut : ramKeptBut torn s (powerFailEvent torn s) := by
  unfold powerFailEvent
  split
  · split
    · exact performReset_ramKeptBut .powerFail nofun torn s
    · exact ramKeptBut_of_fields rfl rfl
    · exact ramKeptBut_of_fields rfl rfl
  · split
    · exact ramKeptBut.trans (t := s.spend 1) (ramKeptBut_of_fields rfl rfl) (performReset_ramKeptBut .powerFail nofun torn _)
    · exact ramKeptBut_of_fields rfl rfl

theorem fireRunning_ramKeptBut {e : Event} (he : e ≠ .resetPowerOn) : ramKeptBut e.torn s (fireRunning e s) := by
  have hsame (torn : Torn) : ramKeptBut torn s s := ramKeptBut_of_fields rfl rfl
  cases e with
  | bitClock torn =>
    simp only [fireRunning]
    split
    · exact bitTick_ramKeptBut s torn
    · exact hsame torn
  | watchdogMatch torn =>
    simp only [fireRunning]
    split
    · exact watchdogMatch_ramKeptBut s torn
    · exact hsame torn
  | powerFail torn =>
    simp only [fireRunning]
    split
    · exact hsame torn
    · exact powerFailEvent_ramKeptBut s torn
  | supplyRecovers => exact ramKeptBut_of_fields rfl rfl
  | resetPin torn => exact performReset_ramKeptBut .pin nofun torn s
  | resetPowerOn => exact absurd rfl he
  | t0Clock | t1Clock | buzClock | adcDone _ | pins _ _ _ _ => exact (quiet_fireRunning _ s rfl).ramKeptBut

/-- No event but a power-on changes a RAM byte it does not name (R557). -/
theorem fireEvent_ramKeptBut {e : Event} (he : e ≠ .resetPowerOn) : ramKeptBut e.torn s (fireEvent e s) := by
  unfold fireEvent
  split
  · cases e with
    | resetPowerOn => exact absurd rfl he
    | resetPin torn => exact performReset_ramKeptBut .pin nofun torn s
    | _ => exact ramKeptBut_of_fields rfl rfl
  · exact fireRunning_ramKeptBut s he

end Events

/-! ## Admitted events -/

/-- An admitted event names only RAM bytes that the interrupted instruction writes (R557, log entry 22). -/
theorem Event.admitted_torn (e : Event) (s : State) : (e.admitted s).torn = admittedTorn s e.torn := by
  cases e <;> rfl

theorem Event.admitted_ne_powerOn {e : Event} (s : State) (he : e ≠ .resetPowerOn) : e.admitted s ≠ .resetPowerOn := by
  cases e with
  | resetPowerOn => exact absurd rfl he
  | _ => simp [Event.admitted]

theorem ne_of_mem_admittedTorn {s : State} {torn : Torn} {c : BitVec 7 × Byte} (hc : c ∈ admittedTorn s torn) {a : Word}
    (ha : a ∉ interruptedWrites s) : c.1.toNat ≠ a.toNat := by
  intro heq
  obtain ⟨-, hany⟩ := List.mem_filter.mp hc
  obtain ⟨b, hb, hbc⟩ := List.any_eq_true.mp hany
  have hba : b = a := BitVec.eq_of_toNat_eq ((beq_iff_eq.mp hbc).trans heq)
  exact ha (hba ▸ hb)

theorem fireEvent_resetPin (torn : Torn) (s : State) : fireEvent (.resetPin torn) s = performReset .pin torn s := by
  unfold fireEvent
  split <;> rfl

theorem fireEvent_resetPowerOn (s : State) : fireEvent .resetPowerOn s = performReset .powerOn [] s := by
  unfold fireEvent
  split <;> rfl

/-! ## Bytes an instruction changes -/

/-- The state with another script and other events inside the instruction being executed. -/
def State.withScript (rest : List Turn) (mid : List Event) (s : State) : State :=
  (s.withSchedule rest).withMidEvents mid

/-- The same result from a state with another script. -/
def Res.withScript {α : Type} (rest : List Turn) (mid : List Event) (r : Res α) : Res α :=
  r.bind fun v s => .ok v (s.withScript rest mid)

section Script

variable {rest : List Turn} {mid : List Event}

/-- Operations that do not see the script, one after the other, do not see it. -/
theorem Res.withScript_bind {α β : Type} (r : Res α) {f : α → State → Res β}
    (hf : ∀ v s, f v (s.withScript rest mid) = (f v s).withScript rest mid) :
    (r.withScript rest mid).bind f = (r.bind f).withScript rest mid := by
  cases r with
  | ok v s => exact hf v s
  | fault e => rfl

theorem memRead_withScript (a : Word) (s : State) :
    memRead a (s.withScript rest mid) = (memRead a s).withScript rest mid := by
  have hview (r : Sfr) : sfrView r (s.withScript rest mid) = sfrView r s := rfl
  have hregion : regionOf (s.withScript rest mid).device a = regionOf s.device a := rfl
  unfold memRead
  rw [hregion]
  split
  case h_3 =>
    simp only [readSfr, hview, View.sample]
    split <;> rfl
  all_goals rfl

theorem directPage_withScript (d : Byte) (s : State) :
    directPage d (s.withScript rest mid) = (directPage d s).withScript rest mid := by
  have hpsw : (s.withScript rest mid).psw = s.psw := rfl
  unfold directPage
  rw [hpsw]
  split <;> rfl

theorem readPair_withScript (d : Byte) (s : State) :
    readPair d (s.withScript rest mid) = (readPair d s).withScript rest mid := by
  unfold readPair
  rw [directPage_withScript]
  refine Res.withScript_bind _ fun a s0 => ?_
  rw [memRead_withScript]
  refine Res.withScript_bind _ fun lo s1 => ?_
  rw [directPage_withScript]
  refine Res.withScript_bind _ fun b s2 => ?_
  rw [memRead_withScript]
  exact Res.withScript_bind _ fun hi s3 => rfl

theorem effectiveAddress_withScript (o : Operand) (s : State) :
    effectiveAddress o (s.withScript rest mid) = (effectiveAddress o s).withScript rest mid := by
  cases o with
  | dp d | dpX d | dpY d | atX => exact directPage_withScript _ s
  | abs a | absY a => rfl
  | indX d => exact readPair_withScript _ s
  | indY d =>
    simp only [effectiveAddress]
    rw [readPair_withScript]
    exact Res.withScript_bind _ fun p s1 => rfl

/-- The bytes an instruction writes do not depend on the script. -/
theorem writtenBy_withScript (i : Instr) (s : State) : writtenBy i (s.withScript rest mid) = writtenBy i s := by
  unfold writtenBy
  split
  · rw [effectiveAddress_withScript]
    cases effectiveAddress _ s <;> rfl
  · rfl
  · rfl

theorem memFetch_withScript (a : Word) (s : State) :
    memFetch a (s.withScript rest mid) = (memFetch a s).withScript rest mid := by
  have hregion : regionOf (s.withScript rest mid).device a = regionOf s.device a := rfl
  unfold memFetch
  rw [hregion]
  split <;> rfl

theorem fetch8_withScript (s : State) : fetch8 (s.withScript rest mid) = (fetch8 s).withScript rest mid := by
  have hpc : (s.withScript rest mid).pc = s.pc := rfl
  unfold fetch8
  rw [hpc, memFetch_withScript]
  exact Res.withScript_bind _ fun v s1 => rfl

theorem fetchInstruction_withScript (s : State) :
    fetchInstruction (s.withScript rest mid) = (fetchInstruction s).withScript rest mid := by
  unfold fetchInstruction
  rw [fetch8_withScript]
  refine Res.withScript_bind _ fun op s1 => ?_
  simp only
  split
  · rfl
  · rw [fetch8_withScript]
    exact Res.withScript_bind _ fun b1 s2 => rfl
  · rw [fetch8_withScript]
    refine Res.withScript_bind _ fun b1 s2 => ?_
    rw [fetch8_withScript]
    exact Res.withScript_bind _ fun b2 s3 => rfl

end Script

/-- The watchdog at the end of an instruction keeps every byte of memory: its reset cuts no instruction short. -/
theorem byteAt_settleWatchdog (s : State) (a : Word) : (settleWatchdog s).byteAt a = s.byteAt a := by
  obtain ⟨-, e⟩ | ⟨-, e⟩ := settleWatchdog_ok s
  · rw [e]
  · rw [e]
    unfold watchdogMatch
    split <;> rfl

/-- An instruction run to its end changes no byte outside those a reset that cuts it short leaves open. -/
theorem runInstruction_memoryKept {mid : List Event} {rest : List Turn} {s t : State} (hat : atInstruction s = true)
    (h : runInstruction mid (s.withSchedule rest) = .next t) : memoryKept (· ∈ interruptedWrites s) s t := by
  have hscript : s.withSchedule rest = s.withScript rest s.midEvents := rfl
  rw [runInstruction, hscript, fetchInstruction_withScript] at h
  unfold interruptedWrites
  rw [if_pos hat]
  cases hfetch : fetchInstruction s with
  | fault e =>
    rw [hfetch] at h
    cases h
  | ok i s1 =>
    rw [hfetch] at h
    simp only [Res.withScript, Res.bind_ok] at h
    split at h
    case h_2 | h_3 => cases h
    case h_1 u hexec =>
      cases h
      obtain ⟨pc, rfl⟩ := fetchInstruction_ok hfetch
      intro a ha
      have hkept := exec_writtenBy hexec a (by
        have : ((s.withPc pc).withScript rest s.midEvents).withMidEvents mid = (s.withPc pc).withScript rest mid := rfl
        rwa [this, writtenBy_withScript])
      exact (byteAt_settleWatchdog _ a).trans hkept

/-- Settles O52: a reset event is `performReset`; what an event leaves open of the RAM it names, and it is admitted to
name only what the interrupted instruction writes. -/
theorem resetEvents : Obligations.ResetEvents := by
  refine ⟨fun s e rest hs he => ?_, fun s t e rest hs he hstep a _ hnot => ?_, fun s hmode => ?_,
    fun s t mid rest hruns hmoves hstep => ?_⟩
  · obtain ⟨cause, torn, hstep, hpin⟩ : ∃ cause torn, step s = .next (performReset cause torn (s.withSchedule rest)) ∧
        ∀ named, e = .resetPin named → cause = .pin ∧ torn = admittedTorn s named := by
      rw [step_of_event hs]
      obtain rfl | ⟨torn, rfl⟩ := he
      · exact ⟨.powerOn, [], congrArg _ (fireEvent_resetPowerOn _), nofun⟩
      · exact ⟨.pin, admittedTorn s torn, congrArg _ (fireEvent_resetPin _ _),
          fun named hnamed => ⟨rfl, by cases hnamed; rfl⟩⟩
    refine ⟨_, hstep, rfl, rfl, rfl, rfl, rfl, rfl, rfl, rfl, rfl, rfl, rfl, rfl, rfl, rfl, rfl,
      (performReset_programKept cause torn (s.withSchedule rest)).program, fun named hnamed a _ hout => ?_⟩
    obtain ⟨rfl, rfl⟩ := hpin named hnamed
    exact performReset_ramKeptBut .pin nofun _ (s.withSchedule rest) a fun c hc => hout c (List.mem_filter.mp hc).1
  · rw [step_of_event hs] at hstep
    cases hstep
    refine fireEvent_ramKeptBut (s.withSchedule rest) (Event.admitted_ne_powerOn s he) a fun c hc => ?_
    rw [Event.admitted_torn] at hc
    exact ne_of_mem_admittedTorn hc hnot
  · have hat : atInstruction s = false := by simp [atInstruction, hmode]
    simp [interruptedWrites, hat]
  · have hat : atInstruction s = true := by
      obtain ⟨hboot, hclock, hmode, haccept⟩ := hruns
      simp [atInstruction, hboot, hclock, hmode, haccept]
    rw [step_runs hruns hmoves] at hstep
    exact runInstruction_memoryKept hat hstep

end Sys2Proof.Machine
end

section
/-! The basic interval timer and the watchdog (spec/60_exceptions.md R440, R442, R475): a clock, the delivery of a match
as an event, and the match at the end of an instruction. -/

namespace Sys2Proof.Machine

/-- `t` is `s` after a reset from within: PC is the reset vector, the clock unit and the mode are those of reset, and no
request is pending. -/
structure Restarted (s t : State) : Prop where
  pc : t.pc = s.romByte 0xFFFF ++ s.romByte 0xFFFE
  mode : t.mode = .run
  clock : t.clock = State.reset.clock
  irqh : t.irq.irqh = 0
  irql : t.irq.irql = 0

section Watchdog

variable {s : State} (torn : Torn)

theorem watchdogMatch_restarts (h : s.clock.wdton = true) : Restarted s (watchdogMatch torn s) := by
  rw [watchdogMatch_resets torn h]
  exact ⟨rfl, rfl, rfl, rfl, rfl⟩

/-! ## The interval timer -/

/-- BITR back at 00H with BITIF set, before the watchdog counts the overflow (R440, R475). -/
def State.overflowed (s : State) : State := (s.withClock { s.clock with bitr := 0 }).request .basicInterval

theorem bitTick_overflows (h : s.clock.bitr = 0xFF) : bitTick torn s = watchdogTick torn s.overflowed := if_pos h

theorem fireEvent_bitClock (hmode : s.mode = .run ∨ s.mode = .rcWdt) (hclock : s.power.clockHalted = false) :
    fireEvent (.bitClock torn) s = bitTick torn s := by
  simp only [fireEvent, hclock, fireRunning, if_pos hmode, Bool.false_eq_true, if_false]

/-! ## The match -/

/-- An overflow has been counted since the counter was cleared (R442). -/
theorem ClockUnit.counting_iff {c : ClockUnit} : c.counting = true ↔ c.wdtWrapped = true ∨ c.wdtcnt ≠ 0 := by
  simp [ClockUnit.counting]

/-- The match is due once one overflow and as many as WDTR[6:0] have been counted (R442, log entry 44). -/
theorem ClockUnit.watchdogDue_iff {c : ClockUnit} : c.watchdogDue = true ↔
    c.wdtWrapped = true ∨ (0 < c.wdtcnt.toNat ∧ c.wdtr.toNat ≤ c.wdtcnt.toNat) := by
  have hzero : c.wdtcnt ≠ 0 ↔ 0 < c.wdtcnt.toNat := by
    rw [Nat.pos_iff_ne_zero]
    exact not_congr BitVec.toNat_inj.symm
  rw [ClockUnit.watchdogDue, Bool.and_eq_true, ClockUnit.counting_iff, hzero]
  simp only [Bool.or_eq_true, decide_eq_true_eq]
  tauto

/-- The counter stands at WDTR[6:0] with an overflow counted. -/
theorem ClockUnit.watchdogEqual_iff {c : ClockUnit} : c.watchdogEqual = true ↔
    c.wdtcnt = c.wdtr ∧ (c.wdtWrapped = true ∨ c.wdtcnt ≠ 0) := by
  rw [ClockUnit.watchdogEqual, Bool.and_eq_true, ClockUnit.counting_iff, beq_iff_eq, and_comm]

theorem fireEvent_watchdogMatch (hmode : s.mode = .run ∨ s.mode = .rcWdt) (hclock : s.power.clockHalted = false) :
    fireEvent (.watchdogMatch torn) s = if s.clock.watchdogDue then watchdogMatch torn s else s := by
  simp only [fireEvent, hclock, fireRunning, hmode, and_true, Bool.false_eq_true, if_false]

end Watchdog

/-- Settles O53: a clock counts, the count matches or is kept, and a match sets WDTIF or resets. -/
theorem watchdogAndIntervalTimer : Obligations.WatchdogAndIntervalTimer := by
  refine ⟨fun s torn rest hs hmode hclock => ?_, fun s torn rest hs hmode hclock => ?_, fun s => ?_⟩
  · have hstep : step s = .next (bitTick (admittedTorn s torn) (s.withSchedule rest)) := by
      rw [step_of_event hs]
      exact congrArg _ (fireEvent_bitClock _ hmode hclock)
    have hoverflow (hff : s.clock.bitr = 0xFF) :
        step s = .next (watchdogTick (admittedTorn s torn) (s.withSchedule rest).overflowed) :=
      hstep.trans (congrArg _ (bitTick_overflows _ hff))
    refine ⟨fun hff => ?_, fun hff hcount => ?_, fun hff hmatch hwdton => ?_, fun hff hmatch hwdton => ?_⟩
    · exact hstep.trans (congrArg _ (if_neg hff))
    · exact (hoverflow hff).trans (congrArg _ (watchdogTick_counts (s := (s.withSchedule rest).overflowed) hcount))
    · rw [hoverflow hff, watchdogTick_matches (s := (s.withSchedule rest).overflowed) hmatch,
        watchdogMatch_requests (s := (s.withSchedule rest).overflowed) _ hwdton]
      rfl
    · obtain ⟨hpc, hrun, hunit, hirqh, hirql⟩ := watchdogMatch_restarts (s := (s.withSchedule rest).overflowed)
        (admittedTorn s torn) hwdton
      exact ⟨_, (hoverflow hff).trans (congrArg _ (watchdogTick_matches (s := (s.withSchedule rest).overflowed) hmatch)),
        hpc, hrun, hunit, hirqh, hirql⟩
  · have hstep : step s = .next (if s.clock.watchdogDue then watchdogMatch (admittedTorn s torn) (s.withSchedule rest)
        else s.withSchedule rest) := by
      rw [step_of_event hs]
      exact congrArg _ (fireEvent_watchdogMatch _ hmode hclock)
    simp only [← ClockUnit.watchdogDue_iff]
    refine ⟨fun hdue => hstep.trans (congrArg _ (if_neg hdue)), fun hdue hwdton => ?_, fun hdue hwdton => ?_⟩
    · rw [hstep, if_pos hdue, watchdogMatch_requests (s := s.withSchedule rest) _ hwdton]
      rfl
    · obtain ⟨hpc, hrun, hunit, hirqh, hirql⟩ := watchdogMatch_restarts (s := s.withSchedule rest)
        (admittedTorn s torn) hwdton
      exact ⟨_, hstep.trans (congrArg _ (if_pos hdue)), hpc, hrun, hunit, hirqh, hirql⟩
  · simp only [← ClockUnit.watchdogEqual_iff]
    refine ⟨fun hequal => if_neg hequal, fun hequal hwdton => ?_, fun hequal hwdton => ?_⟩
    · rw [settleWatchdog, if_pos hequal, watchdogMatch_requests [] hwdton]
      rfl
    · rw [settleWatchdog, if_pos hequal]
      obtain ⟨hpc, hrun, hunit, -, -⟩ := watchdogMatch_restarts [] hwdton
      exact ⟨hpc, hrun, hunit, by rw [watchdogMatch_resets [] hwdton]; rfl⟩

end Sys2Proof.Machine
end

section
/-! Edges on INT0 and INT1 in Run mode: requests and captures (spec/60_exceptions.md R407, R409, spec/61_peripherals.md
R482, R487, R490). -/

namespace Sys2Proof.Machine

/-! ## The timers after a capture -/

/-- The timers after `Capture0`: both halves of the pair in 16-bit mode (R487, R490, D41). -/
def Timers.capturedBy0 (t : Timers) : Timers :=
  if t.bit16 then { t with cdr1 := t.t1, cdr0 := t.t0, t1 := 0, t0 := 0 } else { t with cdr0 := t.t0, t0 := 0 }

/-- The timers after `Capture1` (R482, R490). -/
def Timers.capturedBy1 (t : Timers) : Timers := { t with cdr1 := t.t1, t1 := 0 }

/-- The timers after the captures that happen, `Capture0` first (log entry 46). -/
def Timers.captures (take0 take1 : Bool) (t : Timers) : Timers :=
  let u := if take0 then t.capturedBy0 else t
  if take1 then u.capturedBy1 else u

/-- An edge on INT0 captures where CAP0 = 1 and timer 0 runs (R490). -/
def Timers.asks0 (t : Timers) : Bool := t.cap0 && timer0Runs t

/-- An edge on INT1 captures where CAP1 = 1 and TM1's own run bits say so (R482, R490). -/
def Timers.asks1 (t : Timers) : Bool := t.cap1 && capture1Runs t

/-- A capture does not move the mode registers. -/
theorem Timers.asks1_capturedBy0 (t : Timers) : t.capturedBy0.asks1 = t.asks1 := by
  unfold Timers.capturedBy0
  split <;> rfl

section Captures

variable {t : Timers} (take0 take1 : Bool)

theorem Timers.captures_separate (h : t.bit16 = false) : t.captures take0 take1 = { t with
    cdr0 := if take0 then t.t0 else t.cdr0, t0 := if take0 then 0 else t.t0,
    cdr1 := if take1 then t.t1 else t.cdr1, t1 := if take1 then 0 else t.t1 } := by
  cases take0 <;> cases take1 <;> simp [Timers.captures, Timers.capturedBy0, Timers.capturedBy1, h]

theorem Timers.captures_pair (h : t.bit16 = true) : t.captures take0 take1 = { t with
    cdr0 := if take0 then t.t0 else t.cdr0, t0 := if take0 then 0 else t.t0,
    cdr1 := if take0 then (if take1 then 0 else t.t1) else if take1 then t.t1 else t.cdr1,
    t1 := if take0 || take1 then 0 else t.t1 } := by
  cases take0 <;> cases take1 <;> simp [Timers.captures, Timers.capturedBy0, Timers.capturedBy1, h]

/-- Captures move the counters and the capture registers only. -/
theorem Timers.captures_kept (t : Timers) : t.captures take0 take1 = { t with
    cdr0 := (t.captures take0 take1).cdr0, t0 := (t.captures take0 take1).t0,
    cdr1 := (t.captures take0 take1).cdr1, t1 := (t.captures take0 take1).t1 } := by
  cases h : t.bit16
  · rw [Timers.captures_separate _ _ h]
  · rw [Timers.captures_pair _ _ h]

end Captures

/-! ## When a timer runs -/

/-- With CN = ST the timer runs as they say (R494). -/
theorem timerRuns_settled {cn st : Bool} (h : cn = st) : timerRuns cn st = cn := by
  subst h
  cases cn <;> rfl

theorem Timers.badPair_separate {t : Timers} (h : t.bit16 = false) : t.badPair = false := by simp [Timers.badPair, h]

theorem Timers.badPair_pair {t : Timers} (h : t.bit16 = true) : t.badPair = (t.t1ck != 3) := by
  simp [Timers.badPair, h]

/-- In a configuration the manual describes, an edge takes a capture by the run bits, where they settle it (R494). -/
theorem Timers.asks0_settled {t : Timers} {edge : Bool} (hpair : t.badPair = false)
    (h : (edge && t.cap0) = false ∨ t.t0cn = t.t0st) : (edge && t.asks0) = (edge && t.cap0 && t.t0cn) := by
  rw [Timers.asks0, ← Bool.and_assoc]
  obtain h | h := h
  · rw [h, Bool.false_and, Bool.false_and]
  · rw [timer0Runs, timerRuns_settled h, hpair, Bool.not_false, Bool.and_true]

theorem Timers.asks1_settled {t : Timers} {edge : Bool} (hpair : t.badPair = false)
    (h : (edge && t.cap1) = false ∨ t.t1cn = t.t1st) : (edge && t.asks1) = (edge && t.cap1 && t.t1cn) := by
  rw [Timers.asks1, ← Bool.and_assoc]
  obtain h | h := h
  · rw [h, Bool.false_and, Bool.false_and]
  · rw [capture1Runs, timerRuns_settled h, hpair, Bool.not_false, Bool.and_true]

/-- A pair without T1CK = 11 captures nothing (R487, log entry 25). -/
theorem Timers.captures_badPair {t : Timers} (edge0 edge1 : Bool) (h : t.badPair = true) :
    t.captures (edge0 && t.asks0) (edge1 && t.asks1) = t := by
  simp [Timers.captures, Timers.asks0, Timers.asks1, timer0Runs, capture1Runs, h]

/-! ## The edges -/

/-- The interrupt registers with a request flag set where its event occurred (R407). -/
def Interrupts.raisedIf (occurs : Bool) (src : IntSource) (q : Interrupts) : Interrupts :=
  if occurs then src.raise q else q

theorem Interrupts.requested_raisedIf (src raised : IntSource) (occurs : Bool) (q : Interrupts) :
    src.requested (q.raisedIf occurs raised) = (src.requested q || (decide (src = raised) && occurs)) := by
  cases occurs <;> simp [Interrupts.raisedIf, IntSource.requested_raise]

section Edges

variable {s : State}

theorem capture0_eq (s : State) : capture0 s = s.withTimers s.timers.capturedBy0 := by
  unfold capture0 Timers.capturedBy0
  simp only
  split <;> rfl

theorem int0Edge_running (h : s.mode = .run) :
    int0Edge s = (s.withTimers (if s.timers.asks0 then s.timers.capturedBy0 else s.timers)).request .int0 := by
  have hasked : (s.timers.cap0 && timer0Runs s.timers && s.mode == .run) = s.timers.asks0 := by simp [h, Timers.asks0]
  unfold int0Edge
  rw [hasked, capture0_eq]
  cases s.timers.asks0 <;> rfl

theorem int1Edge_running (h : s.mode = .run) :
    int1Edge s = (s.withTimers (if s.timers.asks1 then s.timers.capturedBy1 else s.timers)).request .int1 := by
  have hasked : (s.timers.cap1 && capture1Runs s.timers && s.mode == .run) = s.timers.asks1 := by simp [h, Timers.asks1]
  unfold int1Edge
  rw [hasked]
  cases s.timers.asks1 <;> rfl

/-- Without an edge on EC0, edges in Run mode capture and raise requests, and do nothing else (R409, R490). -/
theorem serveEdges_running (edge0 edge1 : Bool) (h : s.mode = .run) : serveEdges false edge0 edge1 s =
    (s.withTimers (s.timers.captures (edge0 && s.timers.asks0) (edge1 && s.timers.asks1))).withIrq
      ((s.irq.raisedIf edge0 .int0).raisedIf edge1 .int1) := by
  cases edge0
  · cases edge1
    · rfl
    · exact int1Edge_running h
  · cases edge1
    · exact int0Edge_running h
    · have hserve : serveEdges false true true s = int1Edge (int0Edge s) := rfl
      rw [hserve, int1Edge_running (by rw [int0Edge_running h]; exact h), int0Edge_running h]
      cases s.timers.asks0
      · rfl
      · simp only [State.request_timers, State.withTimers_timers, if_true, Timers.asks1_capturedBy0]
        rfl

/-- A change of the levels of port B alone is no edge of EC0. -/
theorem fireEvent_portB (rb : BitVec 5) (hclock : s.power.clockHalted = false) :
    fireEvent (.pins s.ports.pinA rb s.ports.pinC s.ports.pinD) s =
      serveEdges false (int0Occurs s (rb.getLsbD 2)) (int1Occurs s (rb.getLsbD 3))
        (takeLevels s.ports.pinA rb s.ports.pinC s.ports.pinD s) := by
  simp only [fireEvent, hclock, Bool.false_eq_true, if_false, fireRunning, pinsEvent]
  rw [Bool.and_assoc, Bool.not_and_self, Bool.and_false]

/-- What a change of the levels of port B does in Run mode (R407, R409, R490). -/
theorem fireEvent_portB_running (rb : BitVec 5) (hmode : s.mode = .run) (hclock : s.power.clockHalted = false) :
    ∃ timers irq, fireEvent (.pins s.ports.pinA rb s.ports.pinC s.ports.pinD) s =
        ((s.withPorts { s.ports with pinB := rb }).withTimers timers).withIrq irq ∧
      timers = s.timers.captures (int0Occurs s (rb.getLsbD 2) && s.timers.asks0)
        (int1Occurs s (rb.getLsbD 3) && s.timers.asks1) ∧
      ∀ src : IntSource, src.requested irq = (src.requested s.irq ||
        (decide (src = .int0) && int0Occurs s (rb.getLsbD 2)) || (decide (src = .int1) && int1Occurs s (rb.getLsbD 3))) := by
  refine ⟨_, _, (fireEvent_portB rb hclock).trans (serveEdges_running _ _ hmode), rfl, fun src => ?_⟩
  rw [Interrupts.requested_raisedIf, Interrupts.requested_raisedIf]
  cases src <;> rfl

end Edges

/-- Settles O55: the step raises the requests of the edges and makes the captures they take, and nothing else. -/
theorem captures : Obligations.Captures := by
  intro s rb rest hs hmode hclock edge0 edge1 asked0 asked1 takes0 takes1 settled0 settled1
  obtain ⟨timers, irq, hfire, htimers, hrequests⟩ := fireEvent_portB_running (s := s.withSchedule rest) rb hmode hclock
  replace htimers : timers = s.timers.captures (edge0 && s.timers.asks0) (edge1 && s.timers.asks1) := htimers
  have htake0 (hpair : s.timers.badPair = false) (h : settled0) : (edge0 && s.timers.asks0) = takes0 :=
    Timers.asks0_settled hpair h
  have htake1 (hpair : s.timers.badPair = false) (h : settled1) : (edge1 && s.timers.asks1) = takes1 :=
    Timers.asks1_settled hpair h
  refine ⟨_, (step_of_event hs).trans (congrArg _ hfire), rfl, fun _ => rfl, rfl, hrequests, ?_, fun h16 => ?_,
    fun h16 hck h0 => ?_, fun h16 hck => ?_⟩
  · subst htimers
    exact Timers.captures_kept _ _ s.timers
  · have hpair := Timers.badPair_separate h16
    rw [Timers.captures_separate _ _ h16] at htimers
    subst htimers
    exact ⟨fun h0 => by rw [← htake0 hpair h0]; exact ⟨rfl, rfl⟩, fun h1 => by rw [← htake1 hpair h1]; exact ⟨rfl, rfl⟩⟩
  · have hpair : s.timers.badPair = false := by simp [Timers.badPair_pair h16, hck]
    rw [Timers.captures_pair _ _ h16, htake0 hpair h0] at htimers
    subst htimers
    exact ⟨rfl, rfl, fun h1 => by rw [← htake1 hpair h1]; exact ⟨rfl, rfl⟩⟩
  · exact htimers.trans (Timers.captures_badPair edge0 edge1
      ((Timers.badPair_pair h16).trans (bne_iff_ne.mpr hck)))

end Sys2Proof.Machine
end

section
/-! What a write to a control register stores, and what a read of it shows (spec/10_state.md R40, R41,
spec/61_peripherals.md R441, R462 to R469, R474, R480 to R484, R495, R500, R520). -/

namespace Sys2Proof.Machine

/-- A sample of a view shows the settled bits of its value. -/
theorem View.sample_masked {w : View} {mask : Byte} (s : State) (h : ∀ j, mask.getLsbD j = true → w.mask.getLsbD j = true) :
    (w.sample s).1 &&& mask = w.value &&& mask := by
  apply BitVec.eq_of_getLsbD_eq
  intro j _
  rw [BitVec.getLsbD_and, BitVec.getLsbD_and]
  cases hj : mask.getLsbD j
  · simp
  · rw [View.sample_getLsbD s (h j hj)]

/-- The bits of a written byte under `mask` read back from a control register, and the write changes no CPU register and
no byte of memory. -/
theorem readsBack_of_view {a : Word} {r : Sfr} {mask settled : Byte} (v : Byte) (s : State) (ha : sfrAt a = some r)
    (hr : r ≠ .adcr) (hvalue : (sfrView r (writeSfr r v s)).value &&& mask = v &&& mask)
    (hsettled : (sfrView r (writeSfr r v s)).mask = settled) (hmask : settled &&& mask = mask) :
    ∃ t w u, memWrite a v s = .ok () t ∧ memRead a t = .ok w u ∧ w &&& mask = v &&& mask ∧
      t.cpu = s.cpu ∧ ∀ b, t.byteAt b = s.byteAt b := by
  obtain ⟨hcpu, hmem, -, -, hdevice, -, -, -, -, hcycle⟩ := writeSfr_kept r v s
  refine ⟨_, _, _, memWrite_sfr v s ha hr, memRead_sfr _ ha, ?_, hcpu, State.byteAt_congr hmem hdevice hcycle⟩
  refine (View.sample_masked _ fun j hj => ?_).trans hvalue
  rw [← hmask, BitVec.getLsbD_and, Bool.and_eq_true] at hj
  rw [hsettled]
  exact hj.1

/-! ## Fields of a byte -/

theorem highField4_masked : ∀ v : Byte, (field v 4 4 ++ 0#4) &&& 0xF0 = v &&& 0xF0 := by decide

theorem highField3_masked : ∀ v : Byte, (field v 5 3 ++ 0#5) &&& 0xE0 = v &&& 0xE0 := by decide

theorem lowField4_masked : ∀ v : Byte, (field v 0 4).setWidth 8 &&& 0x0F = v &&& 0x0F := by decide

theorem lowField6_masked : ∀ v : Byte, (field v 0 6).setWidth 8 &&& 0x3F = v &&& 0x3F := by decide

/-- The fields of PFDR but PFDS (R520, log entry 41). -/
theorem pfdrFields_masked : ∀ v : Byte, (field v 0 4).setWidth 8 &&& 0x0E = v &&& 0x0E := by decide

/-! ## The registers -/

/-- A register that is written and read back, with its bits whose value is not the hardware's to change. -/
theorem readWrite_readsBack (v : Byte) (s : State) {a : Word} {mask : Byte}
    (h : (a, mask) ∈ [((0xE2 : Word), (0xF0 : Byte)), (0xE3, 0xE0), (0xE4, 0xF0), (0xE5, 0xE0), (0xE6, 0x0F),
      (0xD0, 0x3F), (0xD2, 0xFF), (0xEF, 0x0E)]) :
    ∃ t w u, memWrite a v s = .ok () t ∧ memRead a t = .ok w u ∧ w &&& mask = v &&& mask ∧
      t.cpu = s.cpu ∧ ∀ b, t.byteAt b = s.byteAt b := by
  simp only [List.mem_cons, Prod.mk.injEq, List.not_mem_nil, or_false] at h
  obtain ⟨rfl, rfl⟩ | ⟨rfl, rfl⟩ | ⟨rfl, rfl⟩ | ⟨rfl, rfl⟩ | ⟨rfl, rfl⟩ | ⟨rfl, rfl⟩ | ⟨rfl, rfl⟩ | ⟨rfl, rfl⟩ := h
  · exact readsBack_of_view (r := .ienh) v s rfl nofun (highField4_masked v) rfl BitVec.and_self
  · exact readsBack_of_view (r := .ienl) v s rfl nofun (highField3_masked v) rfl BitVec.and_self
  · exact readsBack_of_view (r := .irqh) v s rfl nofun (highField4_masked v) rfl BitVec.and_self
  · exact readsBack_of_view (r := .irql) v s rfl nofun (highField3_masked v) rfl BitVec.and_self
  · exact readsBack_of_view (r := .ieds) v s rfl nofun (lowField4_masked v) rfl BitVec.and_self
  · exact readsBack_of_view (r := .tm0) v s rfl nofun (lowField6_masked v) rfl BitVec.and_self
  · exact readsBack_of_view (r := .tm1) v s rfl nofun rfl rfl BitVec.and_self
  · refine readsBack_of_view (r := .pfdr) v s rfl nofun (pfdrFields_masked v) rfl ?_
    simp only [sfrView]
    split <;> decide

/-- A write that starts timer 0 stores its mode and clears its count (R480, R494). -/
theorem writeTm0_starts {v : Byte} {t : Timers} (hcn : v.getLsbD 1 = true) (hst : v.getLsbD 0 = true)
    (hoff : t.t0cn = false ∧ t.t0st = false) : writeTm0 v t = { t with tm0 := v.extractLsb' 0 6, t0 := 0 } := by
  obtain ⟨hcn', hst'⟩ := hoff
  rw [writeTm0, hcn, hst, hcn', hst']
  rfl

/-- A write that starts timer 1 stores its mode and clears its count and the PWM counter (R481, R494, log entry 26). -/
theorem writeTm1_starts {v : Byte} {t : Timers} (hcn : v.getLsbD 1 = true) (hst : v.getLsbD 0 = true)
    (hoff : t.t1cn = false ∧ t.t1st = false) : writeTm1 v t = { t with tm1 := v, t1 := 0, pwmCnt := 0 } := by
  obtain ⟨hcn', hst'⟩ := hoff
  simp only [writeTm1, hcn, hst, hcn', hst']
  rfl

theorem writeWdtr_eq (v : Byte) (c : ClockUnit) : writeWdtr v c = { c with
    wdtr := v.extractLsb' 0 7, wdtcnt := if v.getLsbD 7 then 0 else c.wdtcnt,
    wdtWrapped := if v.getLsbD 7 then false else c.wdtWrapped } := by
  unfold writeWdtr
  cases v.getLsbD 7 <;> rfl

/-- Settles O58: each of these addresses is one control register, whose write side stores the fields the rules name. -/
theorem controlRegistersReadBack : Obligations.ControlRegistersReadBack := by
  refine fun v s => ⟨fun a mask h => readWrite_readsBack v s h, fun hcn hst => ⟨fun h0 h0' => ?_, fun h1 h1' => ?_⟩,
    memWrite_sfr (r := .bitr) v s rfl nofun, ?_, memWrite_sfr (r := .t0) v s rfl nofun,
    memWrite_sfr (r := .tdr1) v s rfl nofun, memWrite_sfr (r := .t1) v s rfl nofun,
    memWrite_sfr (r := .pwm0hr) v s rfl nofun, memWrite_sfr (r := .bur) v s rfl nofun,
    memWrite_sfr (r := .raio) v s rfl nofun, memWrite_sfr (r := .rbio) v s rfl nofun,
    memWrite_sfr (r := .rcio) v s rfl nofun, memWrite_sfr (r := .rdio) v s rfl nofun,
    memWrite_sfr (r := .rafunc) v s rfl nofun, memWrite_sfr (r := .rbfunc) v s rfl nofun,
    memWrite_sfr (r := .pupsel) v s rfl nofun⟩
  · rw [memWrite_sfr (r := .tm0) v s rfl nofun, writeSfr, writeTm0_starts hcn hst ⟨h0, h0'⟩]
  · refine ⟨_, memWrite_sfr (r := .tm1) v s rfl nofun, ?_⟩
    rw [writeSfr, writeTm1_starts hcn hst ⟨h1, h1'⟩]
    rfl
  · rw [memWrite_sfr (r := .wdtr) v s rfl nofun, writeSfr, writeWdtr_eq]

end Sys2Proof.Machine
end

section
/-! Ticks of timers 0 and 1, by their internal clocks and by pin EC0 (spec/61_peripherals.md R485 to R489, R494). -/

namespace Sys2Proof.Machine

/-! ## When a timer ticks -/

/-- With CN = ST = 1 timer 0 runs, in a configuration the manual describes (R487, R494). -/
theorem timer0Runs_started {t : Timers} (hcn : t.t0cn = true) (hst : t.t0st = true) : timer0Runs t = !t.badPair := by
  rw [timer0Runs, timerRuns_settled (hcn.trans hst.symm), hcn, Bool.true_and]

/-- With CN = ST = 1 timer 1 runs by itself outside 16-bit mode (R486, R494). -/
theorem timer1Runs_started {t : Timers} (hcn : t.t1cn = true) (hst : t.t1st = true) : timer1Runs t = !t.bit16 := by
  rw [timer1Runs, timerRuns_settled (hcn.trans hst.symm), hcn, Bool.true_and]

theorem timer1Runs_stopped {t : Timers} (hcn : t.t1cn = false) (hst : t.t1st = false) : timer1Runs t = false := by
  rw [timer1Runs, timerRuns_settled (hcn.trans hst.symm), hcn, Bool.false_and]

/-- A pair with T1CK = 11 is the configuration the manual describes (R487). -/
theorem Timers.badPair_described {t : Timers} (h : t.bit16 = true) (hck : t.t1ck = 3) : t.badPair = false := by
  rw [Timers.badPair_pair h, hck]
  rfl

section Clocks

variable {s : State}

/-- A running timer 0 takes internal clocks in Run mode and, with T0CK = 110, in wake-up timer mode (R492). -/
theorem t0ClockEnabled_iff (hruns : timer0Runs s.timers = true) : t0ClockEnabled s = true ↔
    s.mode = .run ∧ s.timers.t0ck ≠ 7 ∨ s.mode = .wakeupTimer ∧ s.timers.t0ck = 6 := by
  have hne : s.timers.t0ck = 6 → s.timers.t0ck ≠ 7 := fun h => by rw [h]; decide
  simp only [t0ClockEnabled, hruns, Bool.true_and, Bool.and_eq_true, Bool.or_eq_true, beq_iff_eq, bne_iff_ne]
  tauto

theorem t0ClockEnabled_stopped (hrun : s.mode ≠ .run) (hwake : ¬ (s.mode = .wakeupTimer ∧ s.timers.t0ck = 6)) :
    t0ClockEnabled s = false := by
  rw [Bool.eq_false_iff]
  simp only [t0ClockEnabled, ne_eq, Bool.and_eq_true, Bool.or_eq_true, beq_iff_eq]
  tauto

theorem t1ClockEnabled_iff : t1ClockEnabled s = true ↔
    timer1Runs s.timers = true ∧ s.mode = .run ∧ ¬ (s.timers.t1ck = 3 ∧ s.timers.t0ck = 7) := by
  simp only [t1ClockEnabled, Bool.and_eq_true, beq_iff_eq, Bool.not_eq_true', ← Bool.not_eq_true, and_assoc]

theorem fireEvent_t0Clock (hclock : s.power.clockHalted = false) :
    fireEvent .t0Clock s = if t0ClockEnabled s then timer0Tick s else s := by
  simp only [fireEvent, hclock, fireRunning, Bool.false_eq_true, if_false]

theorem fireEvent_t1Clock (hclock : s.power.clockHalted = false) :
    fireEvent .t1Clock s = if t1ClockEnabled s then timer1Tick s else s := by
  simp only [fireEvent, hclock, fireRunning, Bool.false_eq_true, if_false]

/-! ## Pin EC0 -/

/-- A level that stays is no edge of any kind. -/
theorem selectedEdge_still (sel : EdgeSelect) (level : Bool) : selectedEdge sel level level = false := by
  cases sel <;> simp [selectedEdge]

/-- A tick of timer 0 moves no mode bit of timer 1. -/
theorem timer0Tick_tm1 (s : State) : (timer0Tick s).timers.tm1 = s.timers.tm1 := by
  simp only [timer0Tick]
  repeat' split
  all_goals rfl

/-- Whether timer 1 counts EC0 too is as before the tick of timer 0. -/
theorem sharesEc0_timer0Tick (s : State) : (timer1Runs (timer0Tick s).timers && (timer0Tick s).timers.t1ck == 3) =
    (timer1Runs s.timers && s.timers.t1ck == 3) := by
  simp only [timer1Runs, Timers.t1cn, Timers.t1st, Timers.bit16, Timers.t1ck, timer0Tick_tm1]

/-- A rising edge of EC0 ticks timer 0, or the pair, alone where timer 1 stands or has another clock (R489). -/
theorem ec0Edge_alone (hruns : timer0Runs s.timers = true) (h : timer1Runs s.timers = false ∨ s.timers.t1ck ≠ 3) :
    ec0Edge s = timer0Tick s := by
  have hown : (timer1Runs s.timers && s.timers.t1ck == 3) = false := by
    obtain h | h := h
    · rw [h, Bool.false_and]
    · rw [beq_false_of_ne h, Bool.and_false]
  simp only [ec0Edge, hruns, if_true, sharesEc0_timer0Tick, hown, Bool.false_eq_true, if_false]

/-- It ticks timer 1 too where that runs by itself on the same clock (R481, R489). -/
theorem ec0Edge_shared (hruns : timer0Runs s.timers = true) (hruns1 : timer1Runs s.timers = true)
    (hck : s.timers.t1ck = 3) : ec0Edge s = timer1Tick (timer0Tick s) := by
  simp only [ec0Edge, hruns, if_true, sharesEc0_timer0Tick, hruns1, hck, beq_self_eq_true, Bool.and_self]

/-- A rising edge of EC0 that is counted, without an edge on INT0 or INT1 (R489). -/
theorem fireEvent_ec0 {ra : BitVec 8} {rb : BitVec 5} (rc : BitVec 2) (rd : BitVec 4)
    (hclock : s.power.clockHalted = false) (henabled : ec0Enabled s = true) (hlow : s.ports.pinA.getLsbD 0 = false)
    (hhigh : ra.getLsbD 0 = true) (h0 : rb.getLsbD 2 = s.irq.int0Seen) (h1 : rb.getLsbD 3 = s.irq.int1Seen) :
    fireEvent (.pins ra rb rc rd) s =
      ec0Edge (s.withPorts { s.ports with pinA := ra, pinB := rb, pinC := rc, pinD := rd }) := by
  have hlevels : takeLevels ra rb rc rd s =
      s.withPorts { s.ports with pinA := ra, pinB := rb, pinC := rc, pinD := rd } := by
    rw [takeLevels, h0, h1]
    rfl
  have hint0 : int0Occurs s (rb.getLsbD 2) = false := by rw [int0Occurs, h0, selectedEdge_still, Bool.and_false]
  have hint1 : int1Occurs s (rb.getLsbD 3) = false := by rw [int1Occurs, h1, selectedEdge_still, Bool.and_false]
  simp only [fireEvent, hclock, Bool.false_eq_true, if_false, fireRunning, pinsEvent, hlevels, hint0, hint1, henabled,
    hlow, hhigh]
  rfl

theorem ec0Enabled_iff : ec0Enabled s = true ↔
    s.timers.t0ck = 7 ∧ s.ports.raio.getLsbD 0 = false ∧ s.mode = .run := by
  simp [ec0Enabled, and_assoc]

/-! ## The steps -/

section Steps

variable {rest : List Turn} (hclock : s.power.clockHalted = false)

include hclock

theorem step_t0Clock (hs : s.schedule = .env .t0Clock :: rest) (hcn : s.timers.t0cn = true) (hst : s.timers.t0st = true)
    (hpair : s.timers.badPair = false)
    (hmode : s.mode = .run ∧ s.timers.t0ck ≠ 7 ∨ s.mode = .wakeupTimer ∧ s.timers.t0ck = 6) :
    step s = .next (timer0Tick (s.withSchedule rest)) := by
  have hruns : timer0Runs s.timers = true := by rw [timer0Runs_started hcn hst, hpair]; rfl
  have henabled : t0ClockEnabled (s.withSchedule rest) = true := (t0ClockEnabled_iff hruns).mpr hmode
  rw [step_of_event hs]
  exact congrArg _ ((fireEvent_t0Clock (s := s.withSchedule rest) hclock).trans (if_pos henabled))

theorem step_t0Clock_stopped (hs : s.schedule = .env .t0Clock :: rest) (hrun : s.mode ≠ .run)
    (hwake : ¬ (s.mode = .wakeupTimer ∧ s.timers.t0ck = 6)) : step s = .next (s.withSchedule rest) := by
  have hoff : t0ClockEnabled (s.withSchedule rest) = false := t0ClockEnabled_stopped hrun hwake
  rw [step_of_event hs]
  exact congrArg _ ((fireEvent_t0Clock (s := s.withSchedule rest) hclock).trans (if_neg (Bool.eq_false_iff.mp hoff)))

theorem step_t1Clock (hs : s.schedule = .env .t1Clock :: rest) (hmode : s.mode = .run) (hcn : s.timers.t1cn = true)
    (hst : s.timers.t1st = true) (h16 : s.timers.bit16 = false) (hck : ¬ (s.timers.t1ck = 3 ∧ s.timers.t0ck = 7)) :
    step s = .next (timer1Tick (s.withSchedule rest)) := by
  have hruns : timer1Runs s.timers = true := by rw [timer1Runs_started hcn hst, h16]; rfl
  have henabled : t1ClockEnabled (s.withSchedule rest) = true := t1ClockEnabled_iff.mpr ⟨hruns, hmode, hck⟩
  rw [step_of_event hs]
  exact congrArg _ ((fireEvent_t1Clock (s := s.withSchedule rest) hclock).trans (if_pos henabled))

/-- A rising edge of EC0 in Run mode, with T0CK = 111, RA0 an input and no edge on INT0 or INT1 (R489). -/
theorem step_ec0 {ra : BitVec 8} {rb : BitVec 5} {rc : BitVec 2} {rd : BitVec 4}
    (hs : s.schedule = .env (.pins ra rb rc rd) :: rest)
    (hcounted : s.timers.t0ck = 7 ∧ s.ports.raio.getLsbD 0 = false ∧ s.mode = .run)
    (hlow : s.ports.pinA.getLsbD 0 = false) (hhigh : ra.getLsbD 0 = true) (h0 : rb.getLsbD 2 = s.irq.int0Seen)
    (h1 : rb.getLsbD 3 = s.irq.int1Seen) : step s = .next (ec0Edge
      ((s.withSchedule rest).withPorts { s.ports with pinA := ra, pinB := rb, pinC := rc, pinD := rd })) := by
  have henabled : ec0Enabled (s.withSchedule rest) = true := ec0Enabled_iff.mpr hcounted
  rw [step_of_event hs]
  exact congrArg _ (fireEvent_ec0 rc rd hclock henabled hlow hhigh h0 h1)

end Steps

end Clocks

/-- Settles O54: an enabled clock or edge is a tick, and a tick counts. -/
theorem timerTicks : Obligations.TimerTicks := by
  intro s rest hclock
  refine ⟨fun hs hcn hst => ⟨fun hmode => ⟨fun h16 => ?_, fun h16 hck => ?_⟩, step_t0Clock_stopped hclock hs⟩,
    fun hs hmode hcn hst h16 hpwm hck => ?_, ?_⟩
  · rw [step_t0Clock hclock hs hcn hst (Timers.badPair_separate h16) hmode,
      timer0Tick_alone (s := s.withSchedule rest) h16]
  · exact ⟨_, step_t0Clock hclock hs hcn hst (Timers.badPair_described h16 hck) hmode, timer0Tick_pair h16⟩
  · rw [step_t1Clock hclock hs hmode hcn hst h16 hck, timer1Tick_alone (s := s.withSchedule rest) hpwm]
  · intro ra rb rc rd hs hmode hck hinput hlow hhigh h0 h1 hcn hst u
    have hedge : step s = .next (ec0Edge u) := step_ec0 hclock hs ⟨hck, hinput, hmode⟩ hlow hhigh h0 h1
    have hruns (hpair : s.timers.badPair = false) : timer0Runs u.timers = true := by
      rw [show u.timers = s.timers from rfl, timer0Runs_started hcn hst, hpair]
      rfl
    refine ⟨fun h16 hother => ?_, fun h16 hck1 hcn1 hst1 hpwm => ?_, fun h16 hck1 => ?_⟩
    · have halone : timer1Runs s.timers = false ∨ s.timers.t1ck ≠ 3 :=
        hother.symm.imp_left fun ⟨hcn1, hst1⟩ => timer1Runs_stopped hcn1 hst1
      rw [hedge, ec0Edge_alone (hruns (Timers.badPair_separate h16)) halone, timer0Tick_alone (s := u) h16]
    · have hruns1 : timer1Runs s.timers = true := by rw [timer1Runs_started hcn1 hst1, h16]; rfl
      have hpwm' : (timer0Tick u).timers.pwm0e = false := by rw [Timers.pwm0e, timer0Tick_tm1]; exact hpwm
      rw [hedge, ec0Edge_shared (hruns (Timers.badPair_separate h16)) hruns1 hck1, timer1Tick_alone hpwm',
        timer0Tick_alone (s := u) h16]
    · have hpart : timer1Runs s.timers = false := by rw [timer1Runs, h16, Bool.not_true, Bool.and_false]
      have halone := ec0Edge_alone (hruns (Timers.badPair_described h16 hck1)) (.inl hpart)
      exact ⟨_, hedge.trans (congrArg _ halone), timer0Tick_pair h16⟩

end Sys2Proof.Machine
end

section
/-! The PWM counter (spec/61_peripherals.md R495, R496). -/

namespace Sys2Proof.Machine

/-! ## Period and duty as numbers -/

theorem toNat_append_byte {w : Nat} (high : BitVec w) (low : Byte) :
    (high ++ low).toNat = high.toNat * 256 + low.toNat := by
  rw [BitVec.toNat_append, ← Nat.shiftLeft_add_eq_or_of_lt low.isLt, Nat.shiftLeft_eq]

/-- `PERIOD` is PWM0HR[3:2]:T1PPR (R495). -/
theorem Timers.period_toNat (t : Timers) : t.period.toNat = (t.pwm0hr.toNat / 4) * 256 + t.tdr1.toNat := by
  have hhigh : (t.pwm0hr.extractLsb' 2 2).toNat = t.pwm0hr.toNat / 4 := by
    rw [BitVec.extractLsb'_toNat, Nat.shiftRight_eq_div_pow]
    omega
  rw [Timers.period, toNat_append_byte, hhigh]

/-- `DUTY_M` is PWM0HR[1:0]:T1PDR (R495). -/
theorem Timers.dutyM_toNat (t : Timers) : t.dutyM.toNat = (t.pwm0hr.toNat % 4) * 256 + t.t1pdr.toNat :=
  toNat_append_byte _ _

/-! ## The tick -/

section Tick

variable {s : State}

/-- With PWM0E = 1 a tick of timer 1 is one of the PWM counter (R496). -/
theorem timer1Tick_pwm (h : s.timers.pwm0e = true) : timer1Tick s = pwmTick s := if_pos h

theorem pwmTick_counts (h : s.timers.pwmCnt ≠ s.timers.period) :
    pwmTick s = s.withTimers { s.timers with pwmCnt := s.timers.pwmCnt + 1 } := if_neg h

/-- At the period the counter returns to 0 and the duty moves; T1IF is set or not (R496). -/
theorem pwmTick_matches (h : s.timers.pwmCnt = s.timers.period) :
    let matched := (s.withTimers { s.timers with pwmCnt := 0, dutyS := s.timers.dutyM }).spend 1
    pwmTick s = matched ∨ pwmTick s = matched.request .timer1 := by
  unfold pwmTick
  simp only [h, if_true]
  cases testBit (freeAt s 0) 0
  · exact .inl rfl
  · exact .inr rfl

end Tick

/-- Settles O56: the step is a tick of the PWM counter, which counts or is at the period. -/
theorem pwmTicks : Obligations.PwmTicks := by
  intro s rest hs hmode hclock hcn hst h16 hpwm hck
  have hstep : step s = .next (pwmTick (s.withSchedule rest)) := by
    rw [step_t1Clock hclock hs hmode hcn hst h16 hck, timer1Tick_pwm (s := s.withSchedule rest) hpwm]
  have hperiod : s.timers.pwmCnt.toNat = (s.timers.pwm0hr.toNat / 4) * 256 + s.timers.tdr1.toNat ↔
      s.timers.pwmCnt = s.timers.period := by rw [← Timers.period_toNat, BitVec.toNat_inj]
  simp only [hperiod]
  by_cases hmatch : s.timers.pwmCnt = s.timers.period
  · simp only [if_pos hmatch]
    obtain htick | htick := pwmTick_matches (s := s.withSchedule rest) hmatch
    · exact ⟨_, hstep.trans (congrArg _ htick), rfl, fun _ => rfl, rfl, s.timers.dutyM_toNat, .inl rfl⟩
    · exact ⟨_, hstep.trans (congrArg _ htick), rfl, fun _ => rfl, rfl, s.timers.dutyM_toNat, .inr rfl⟩
  · simp only [if_neg hmatch]
    have htick := pwmTick_counts (s := s.withSchedule rest) hmatch
    exact ⟨_, hstep.trans (congrArg _ htick), rfl, fun _ => rfl, rfl, rfl⟩

end Sys2Proof.Machine
end

section
/-! The A/D converter: the start of a conversion by a write to ADCM, and its end (spec/61_peripherals.md R510 to R512,
decision D42). -/

namespace Sys2Proof.Machine

/-! ## The write to ADCM -/

/-- With ADEN = 1, or where no value is supplied, `ADEN_SEMANTICS` has nothing to forbid. -/
theorem adenAllows_settled (what : AdenSemantics → Bool) {aden : Bool}
    (h : aden = true ∨ Config.adenSemantics = none) : adenAllows what aden = true := by
  obtain rfl | h := h
  · exact adenAllows_enabled what
  · exact adenAllows_default what aden h

section Write

variable {v : Byte} {c : Adc}

/-- A write that starts a conversion, of the channel written (R510). -/
theorem writeAdcm_starts (hst : v.getLsbD 1 = true) (hallows : adenAllows AdenSemantics.starts (v.getLsbD 5) = true) :
    writeAdcm v c = { c with
      aden := v.getLsbD 5, ads := v.extractLsb' 2 3, adsf := false, busy := true, channel := v.extractLsb' 2 3 } := by
  simp only [writeAdcm, hst, hallows, Bool.and_self, if_true]
  rfl

/-- A write that starts none: ADEN and ADS are stored, and a conversion in progress is kept or not (log entry 49). -/
theorem writeAdcm_stores (h : (v.getLsbD 1 && adenAllows AdenSemantics.starts (v.getLsbD 5)) = false) :
    writeAdcm v c = { c with
      aden := v.getLsbD 5, ads := v.extractLsb' 2 3,
      busy := c.busy && adenAllows AdenSemantics.keeps (v.getLsbD 5) } := by
  simp only [writeAdcm, h, Bool.false_eq_true, if_false]
  rfl

end Write

/-- What every write to ADCM stores and what it keeps. -/
theorem writeAdcm_fields (v : Byte) (c : Adc) : (writeAdcm v c).aden = v.getLsbD 5 ∧
    (writeAdcm v c).ads = v.extractLsb' 2 3 ∧ (writeAdcm v c).adcr = c.adcr := by
  unfold writeAdcm
  simp only
  split <;> exact ⟨rfl, rfl, rfl⟩

/-! ## The end of a conversion -/

theorem fireEvent_adcDone {s : State} (result : Byte) (hclock : s.power.clockHalted = false) (hbusy : s.adc.busy = true)
    (hmode : s.mode = .run) : fireEvent (.adcDone result) s =
      if adenAllows AdenSemantics.completes s.adc.aden then adcDone result s else s := by
  simp only [fireEvent, hclock, Bool.false_eq_true, if_false, fireRunning, hbusy, hmode, true_and]

/-- Settles O57: a write to ADCM starts a conversion or stores, and the end of one is `AdcDone` where it may happen. -/
theorem adConversion : Obligations.AdConversion := by
  refine ⟨fun s v => ?_, fun s result rest hs hmode hclock hbusy => ?_⟩
  · obtain ⟨haden, hads, hadcr⟩ := writeAdcm_fields v s.adc
    refine ⟨_, memWrite_sfr (r := .adcm) v s rfl nofun, rfl, haden, hads, hadcr, fun hsettled => ⟨fun hst => ?_,
      fun hst => ?_⟩, fun f hoff hf => ?_⟩
    · simp only [writeSfr, State.withAdc_adc, writeAdcm_starts hst (adenAllows_settled _ hsettled), and_self]
    · have hnone : (v.getLsbD 1 && adenAllows AdenSemantics.starts (v.getLsbD 5)) = false := by rw [hst, Bool.false_and]
      simp only [writeSfr, State.withAdc_adc, writeAdcm_stores hnone, adenAllows_settled _ hsettled, Bool.and_true,
        and_self]
    · have hsupplied (what : AdenSemantics → Bool) : adenAllows what (v.getLsbD 5) = what f := by
        rw [hoff, adenAllows_supplied what hf]
      split
      next hstarts =>
        obtain ⟨hst, hallowed⟩ := hstarts
        simp only [writeSfr, State.withAdc_adc, writeAdcm_starts hst ((hsupplied _).trans hallowed), and_self]
      next hstarts =>
        have hnone : (v.getLsbD 1 && adenAllows AdenSemantics.starts (v.getLsbD 5)) = false := by
          rw [hsupplied, Bool.eq_false_iff, ne_eq, Bool.and_eq_true]
          exact hstarts
        simp only [writeSfr, State.withAdc_adc, writeAdcm_stores hnone, hsupplied, Bool.and_eq_true, and_self]
  · intro ended
    have hstep : step s = .next (if adenAllows AdenSemantics.completes s.adc.aden then ended
        else s.withSchedule rest) := by
      rw [step_of_event hs]
      exact congrArg _ (fireEvent_adcDone (s := s.withSchedule rest) result hclock hbusy hmode)
    refine ⟨fun hsettled => ?_, fun f hoff hf => ?_⟩
    · rw [hstep, if_pos (adenAllows_settled _ hsettled)]
    · rw [hstep, hoff, adenAllows_supplied _ hf]

end Sys2Proof.Machine
end

section
/-! What a port data register shows and what the machine drives on its pins (spec/61_peripherals.md R460 to R470,
decision D39, log entry 43). -/

namespace Sys2Proof.Machine

/-! ## One pin -/

/-- The latch drives an output, but for an open-drain output that holds 1 (R460, R470). -/
theorem drivenPins_getLsbD (dir latch openDrain : Byte) {n : Nat} (hn : n < 8) :
    (drivenPins dir latch openDrain).getLsbD n = true ↔
      dir.getLsbD n = true ∧ ¬ (openDrain.getLsbD n = true ∧ latch.getLsbD n = true) := by
  simp only [drivenPins, BitVec.getLsbD_and, BitVec.getLsbD_not, hn, decide_true, Bool.true_and, Bool.and_eq_true,
    Bool.not_eq_true', ← Bool.not_eq_true]

/-- A driven pin shows its latch bit, another pin the level the environment gives it (R460, D39). -/
theorem portView_getLsbD (present alternate dir latch openDrain pins : Byte) {n : Nat} (hn : n < 8) :
    (portView present alternate dir latch openDrain pins).value.getLsbD n =
      if (drivenPins dir latch openDrain).getLsbD n then latch.getLsbD n else pins.getLsbD n := by
  simp only [portView, BitVec.getLsbD_or, BitVec.getLsbD_and, BitVec.getLsbD_not, hn, decide_true, Bool.true_and]
  cases (drivenPins dir latch openDrain).getLsbD n <;> simp

/-- A pull-up drives no level. -/
theorem portDrive_withPullUp (dir latch openDrain : Byte) (pullUp : Bool) (n : Nat) :
    if (drivenPins dir latch openDrain).getLsbD n
    then (portDrive dir latch openDrain n).withPullUp pullUp = .level (latch.getLsbD n)
    else ∀ b, (portDrive dir latch openDrain n).withPullUp pullUp ≠ .level b := by
  unfold portDrive
  split
  · rfl
  · cases pullUp <;> exact nofun

theorem portDrive_withPullUp_false (dir latch openDrain : Byte) (n : Nat) :
    (portDrive dir latch openDrain n).withPullUp false = portDrive dir latch openDrain n := by
  unfold portDrive
  split <;> rfl

/-- A port narrower than a byte, as the byte a read shows it in. -/
theorem getLsbD_setWidth_byte {w : Nat} (hw : w ≤ 8) (x : BitVec w) : (x.setWidth 8).getLsbD = x.getLsbD := by
  funext n
  rw [BitVec.getLsbD_setWidth]
  by_cases hn : n < 8
  · simp [hn]
  · simp [hn, BitVec.getLsbD_of_ge x n (by omega)]

/-! ## A port -/

/-- A register that reads as a port shows its plain pins, those the port has and no alternate function takes. -/
theorem portShows_of_view {s : State} {a : Word} {r : Sfr} {present alternate dir latch openDrain pins : Byte}
    {plain : Nat → Prop} {drive : Nat → Drive} (ha : sfrAt a = some r)
    (hview : sfrView r s = portView present alternate dir latch openDrain pins)
    (hplain : ∀ n, plain n → n < 8 ∧ present.getLsbD n = true ∧ alternate.getLsbD n = false)
    (hdrive : ∀ n, plain n → ∃ pullUp, drive n = (portDrive dir latch openDrain n).withPullUp pullUp) :
    portShows s a plain drive dir.getLsbD latch.getLsbD openDrain.getLsbD pins.getLsbD := by
  obtain ⟨k, hk⟩ := View.sample_state (sfrView r s) s
  refine ⟨(readSfr r s).1, k, by rw [memRead_sfr s ha, readSfr, hk], fun n hn => ?_⟩
  obtain ⟨hn8, hpresent, halternate⟩ := hplain n hn
  obtain ⟨pullUp, hdriven⟩ := hdrive n hn
  have hmask : (sfrView r s).mask.getLsbD n = true := by
    rw [hview, portView, BitVec.getLsbD_and, BitVec.getLsbD_not, hpresent, halternate, decide_eq_true hn8]
    rfl
  have hshown := View.sample_getLsbD s hmask
  rw [hview, portView_getLsbD _ _ _ _ _ _ hn8, ← hview] at hshown
  have hpin := portDrive_withPullUp dir latch openDrain pullUp n
  rw [← hdriven] at hpin
  simp only [← drivenPins_getLsbD dir latch openDrain hn8]
  split
  next h => exact ⟨hshown.trans (if_pos h), by rwa [if_pos h] at hpin⟩
  next h => exact ⟨hshown.trans (if_neg h), by rwa [if_neg h] at hpin⟩

/-! ## The pins of the packages and the alternate functions -/

theorem alternateA_getLsbD (p : Ports) {n : Nat} (hn : n < 8) :
    p.alternateA.getLsbD n = (p.rafunc.getLsbD n && decide (n ≠ 0)) := by
  have hmask : ∀ m, m < 8 → (0xFE : Byte).getLsbD m = decide (m ≠ 0) := by decide
  rw [Ports.alternateA, BitVec.getLsbD_and, hmask n hn]

theorem alternateB_getLsbD (p : Ports) {n : Nat} (hn : n < 8) :
    p.alternateB.getLsbD n = (p.rbfunc.getLsbD n || (p.rafunc.getLsbD n && decide (n = 0))) := by
  have hmask : ∀ m, m < 8 → (0x01 : Byte).getLsbD m = decide (m = 0) := by decide
  rw [Ports.alternateB, BitVec.getLsbD_or, BitVec.getLsbD_and, hmask n hn, getLsbD_setWidth_byte (by omega)]

/-- RB has 5 pins, on package P16 only 0, 2 and 4 (R6). -/
theorem pinsB_getLsbD (p : Package) {n : Nat} (hn : n < 5) (heven : p = .p16 → n % 2 = 0) :
    p.pinsB.getLsbD n = true := by
  have hall : ∀ m, m < 5 → (0x1F : Byte).getLsbD m = true := by decide
  have hsome : ∀ m, m < 5 → m % 2 = 0 → (0x15 : Byte).getLsbD m = true := by decide
  cases p with
  | p24 | p20 => exact hall n hn
  | p16 => exact hsome n hn (heven rfl)

/-- RC has 2 pins, none on package P16 (R468). -/
theorem pinsC_getLsbD {p : Package} {n : Nat} (hn : n < 2) (hp : p ≠ .p16) : p.pinsC.getLsbD n = true := by
  have hall : ∀ m, m < 2 → (0x03 : Byte).getLsbD m = true := by decide
  cases p with
  | p24 | p20 => exact hall n hn
  | p16 => exact absurd rfl hp

/-- RD has 4 pins, on package P24 only (R469). -/
theorem pinsD_getLsbD {n : Nat} (hn : n < 4) : Package.p24.pinsD.getLsbD n = true := by
  have hall : ∀ m, m < 4 → (0x0F : Byte).getLsbD m = true := by decide
  exact hall n hn

/-! ## The four ports -/

theorem portA_shows (s : State) : portShows s 0xC0 (fun n => n < 8 ∧ (n = 0 ∨ s.ports.rafunc.getLsbD n = false))
    (driveRA s) s.ports.raio.getLsbD s.ports.latchA.getLsbD s.options.openDrainA.getLsbD s.ports.pinA.getLsbD := by
  have hplain {n : Nat} (h : n < 8 ∧ (n = 0 ∨ s.ports.rafunc.getLsbD n = false)) :
      s.ports.alternateA.getLsbD n = false := by
    obtain ⟨hn, hfree⟩ := h
    rw [alternateA_getLsbD _ hn]
    obtain hzero | hfunc := hfree
    · rw [decide_eq_false (not_not_intro hzero), Bool.and_false]
    · rw [hfunc, Bool.false_and]
  have hpresent : ∀ n, n < 8 → (0xFF : Byte).getLsbD n = true := by decide
  refine portShows_of_view (r := .ra) rfl rfl (fun n h => ⟨h.1, hpresent n h.1, hplain h⟩) fun n h => ⟨false, ?_⟩
  rw [portDrive_withPullUp_false, driveRA, hplain h]
  rfl

theorem portB_shows (s : State) : portShows s 0xC2
    (fun n => n < 5 ∧ (s.device.package = .p16 → n % 2 = 0) ∧ s.ports.rbfunc.getLsbD n = false ∧
      (n = 0 → s.ports.rafunc.getLsbD 0 = false))
    (driveRB s) s.ports.rbio.getLsbD s.ports.latchB.getLsbD s.options.openDrainB.getLsbD s.ports.pinB.getLsbD := by
  rw [← getLsbD_setWidth_byte (by omega) s.ports.rbio, ← getLsbD_setWidth_byte (by omega) s.ports.latchB,
    ← getLsbD_setWidth_byte (by omega) s.options.openDrainB, ← getLsbD_setWidth_byte (by omega) s.ports.pinB]
  have hplain (n : Nat) (h : n < 5 ∧ (s.device.package = .p16 → n % 2 = 0) ∧ s.ports.rbfunc.getLsbD n = false ∧
      (n = 0 → s.ports.rafunc.getLsbD 0 = false)) :
      n < 8 ∧ s.device.package.pinsB.getLsbD n = true ∧ s.ports.alternateB.getLsbD n = false := by
    obtain ⟨hn, heven, hfunc, hanalog⟩ := h
    have hn8 : n < 8 := by omega
    refine ⟨hn8, pinsB_getLsbD _ hn heven, ?_⟩
    rw [alternateB_getLsbD _ hn8, hfunc]
    by_cases hzero : n = 0
    · rw [hzero, hanalog hzero]
      rfl
    · rw [decide_eq_false hzero, Bool.and_false]
      rfl
  refine portShows_of_view (r := .rb) rfl rfl hplain fun n h => ?_
  obtain ⟨-, hpresent, halternate⟩ := hplain n h
  unfold driveRB
  rw [hpresent, halternate]
  exact ⟨_, rfl⟩

theorem portC_shows (s : State) : portShows s 0xC4 (fun n => n < 2 ∧ s.device.package ≠ .p16)
    (driveRC s) s.ports.rcio.getLsbD s.ports.latchC.getLsbD s.options.openDrainC.getLsbD s.ports.pinC.getLsbD := by
  rw [← getLsbD_setWidth_byte (by omega) s.ports.rcio, ← getLsbD_setWidth_byte (by omega) s.ports.latchC,
    ← getLsbD_setWidth_byte (by omega) s.options.openDrainC, ← getLsbD_setWidth_byte (by omega) s.ports.pinC]
  refine portShows_of_view (r := .rc) rfl rfl (fun n ⟨hn, hp⟩ => ⟨by omega, pinsC_getLsbD hn hp, by simp⟩)
    fun n ⟨hn, hp⟩ => ⟨false, ?_⟩
  rw [portDrive_withPullUp_false, driveRC, if_pos (pinsC_getLsbD hn hp)]

theorem portD_shows (s : State) : portShows s 0xC6 (fun n => n < 4 ∧ s.device.package = .p24)
    (driveRD s) s.ports.rdio.getLsbD s.ports.latchD.getLsbD s.options.openDrainD.getLsbD s.ports.pinD.getLsbD := by
  rw [← getLsbD_setWidth_byte (by omega) s.ports.rdio, ← getLsbD_setWidth_byte (by omega) s.ports.latchD,
    ← getLsbD_setWidth_byte (by omega) s.options.openDrainD, ← getLsbD_setWidth_byte (by omega) s.ports.pinD]
  have hpresent {n : Nat} (hn : n < 4) (hp : s.device.package = .p24) : s.device.package.pinsD.getLsbD n = true := by
    rw [hp, pinsD_getLsbD hn]
  refine portShows_of_view (r := .rd) rfl rfl (fun n ⟨hn, hp⟩ => ⟨by omega, hpresent hn hp, by simp⟩)
    fun n ⟨hn, hp⟩ => ?_
  unfold driveRD
  rw [if_pos (hpresent hn hp)]
  exact ⟨_, rfl⟩

/-- Settles O59: each data register stores its latch, and its view and its drives agree pin by pin. -/
theorem portReadsAndWrites : Obligations.PortReadsAndWrites :=
  ⟨fun s v => ⟨memWrite_sfr (r := .ra) v s rfl nofun, memWrite_sfr (r := .rb) v s rfl nofun,
    memWrite_sfr (r := .rc) v s rfl nofun, memWrite_sfr (r := .rd) v s rfl nofun⟩,
  fun s => ⟨portA_shows s, portB_shows s, portC_shows s, portD_shows s⟩⟩

end Sys2Proof.Machine
end

section
/-! The unassigned opcode (spec/30_encoding.md R129 to R131). -/

namespace Sys2Proof

open Machine

/-- No row of the opcode map takes more than two operand bytes. -/
theorem decode_with_two_bytes (op b1 b2 : Byte) : ∃ i rest, decode [op, b1, b2] = .ok (i, rest) := by
  have henough : ¬ [b1, b2].length < (buildOf op).operandBytes := by
    rcases operandBytes_cases (buildOf op) with h | h | h <;> simp [h]
  exact ⟨_, _, by rw [decode_cons, if_neg henough]⟩

/-- Settles O4: 00H is the whole encoding of the unassigned row, so no other opcode decodes to it. -/
theorem onlyOpcodeZeroIsUnassigned : Obligations.OnlyOpcodeZeroIsUnassigned := by
  refine ⟨decode_with_two_bytes, fun bytes rest => ⟨fun h => ?_, ?_⟩, fun _ => rfl⟩
  · obtain ⟨-, hbytes⟩ := encodeOfDecode bytes rest .unassigned h
    exact hbytes
  · rintro rfl
    exact decodeOfEncode .unassigned rest rfl

end Sys2Proof
end

section
/-! The address map: what data accesses and fetches do in each region, and the direct page with G = 1
(spec/20_memory.md R60 to R77, spec/30_encoding.md R106). -/

namespace Sys2Proof.Machine

/-! ## The control-register area -/

/-- The control registers lie at the addresses of 00C0H to 00FFH that are not unoccupied (R40, R44). -/
theorem sfrAt_eq_none {a : Word} : sfrAt a = none ↔ a.toNat < 0xC0 ∨ 0x100 ≤ a.toNat ∨ unoccupied a := by
  unfold sfrAt unoccupied
  split
  case h_29 =>
    simp only [imp_false, List.mem_cons, List.not_mem_nil, or_false, true_iff] at *
    omega
  all_goals
    rename_i h
    simp [h]

theorem unoccupied_bounds {a : Word} (h : unoccupied a) : 0xC0 ≤ a.toNat ∧ a.toNat < 0x100 := by
  simp only [unoccupied, List.mem_cons, List.not_mem_nil, or_false] at h
  omega

theorem sfrAt_adcr {a : Word} : sfrAt a = some .adcr ↔ a = 0xEB := by
  refine ⟨fun h => ?_, fun h => h ▸ rfl⟩
  unfold sfrAt at h
  split at h
  case h_25 ha => exact BitVec.eq_of_toNat_eq ha
  all_goals cases h

/-! ## The regions -/

theorem regionOf_unimplemented {d : Device} {a : Word} (hram : ¬ inRam a) (hrom : a.toNat < d.romBase)
    (h : sfrAt a = none) : regionOf d a = .unimplemented := by
  rw [regionOf, if_neg (show ¬ a.toNat < 0x80 from hram), if_neg (by omega), h]

theorem regionOf_ne_rom {d : Device} {a : Word} (h : a.toNat < d.romBase) : regionOf d a ≠ .rom := by
  unfold regionOf
  rw [if_neg (by omega : ¬ d.romBase ≤ a.toNat)]
  split
  · nofun
  · split <;> nofun

/-- Where nothing lies (R60, R63). -/
theorem regionOf_hole {d : Device} {a : Word}
    (h : (0x80 ≤ a.toNat ∧ a.toNat < 0xC0) ∨ (0x100 ≤ a.toNat ∧ a.toNat < d.romBase) ∨ unoccupied a) :
    regionOf d a = .unimplemented := by
  have hbase := d.le_romBase
  rcases h with ⟨hlow, hhigh⟩ | ⟨hlow, hhigh⟩ | hocc
  · exact regionOf_unimplemented (by unfold inRam; omega) (by omega) (sfrAt_eq_none.mpr (.inl hhigh))
  · exact regionOf_unimplemented (by unfold inRam; omega) hhigh (sfrAt_eq_none.mpr (.inr (.inl hlow)))
  · obtain ⟨hlow, hhigh⟩ := unoccupied_bounds hocc
    exact regionOf_unimplemented (by unfold inRam; omega) (by omega) (sfrAt_eq_none.mpr (.inr (.inr hocc)))

/-! ## The accesses, region by region -/

section Accesses

variable {a : Word} {s : State}

theorem memRead_rom (h : s.device.romBase ≤ a.toNat) : memRead a s = .ok (s.romByte a) s := by
  simp only [memRead, regionOf_rom h]

theorem memWrite_rom (v : Byte) (h : s.device.romBase ≤ a.toNat) :
    memWrite a v s = .fault (.writeToProgramMemory a) := by
  simp only [memWrite, regionOf_rom h]

theorem access_hole (h : regionOf s.device a = .unimplemented) :
    memRead a s = .fault (.unimplementedAddress a) ∧ ∀ v, memWrite a v s = .fault (.unimplementedAddress a) := by
  simp only [memRead, memWrite, h, implies_true, and_self]

theorem memWrite_adcr (v : Byte) (s : State) : memWrite 0xEB v s = .fault (.writeToReadOnlyRegister 0xEB) := by
  simp only [memWrite, regionOf_sfr s.device (sfrAt_adcr.mpr rfl)]

/-- A RAM byte written reads back, and the write shows nowhere else (R61). -/
theorem memWrite_ram (v : Byte) (h : inRam a) :
    ∃ t, memWrite a v s = .ok () t ∧ memRead a t = .ok v t ∧ t.cpu = s.cpu ∧ t.peripherals = s.peripherals ∧
      settingKept s t ∧ memoryKept (· = a) s t := by
  obtain ⟨t, ht⟩ := memWrite_answers (v := v) (s := s) (a := a) (by simp [writable, regionOf_ram.mpr h])
  obtain ⟨-, hcpu, -, -, hset, hkept, hram⟩ := memWrite_ok ht
  obtain ⟨hbyte, hper⟩ := hram h
  exact ⟨t, ht, memRead_of_byteAt h hbyte, hcpu, hper, hset, hkept⟩

/-- An occupied address of the control-register area can be read and, but for ADCR, written (R64). -/
theorem access_sfr (h : sfrAt a ≠ none) : (∃ v k, memRead a s = .ok v (s.spend k)) ∧
    ∀ v, if a = 0xEB then memWrite a v s = .fault (.writeToReadOnlyRegister a)
      else ∃ t, memWrite a v s = .ok () t := by
  obtain ⟨r, hr⟩ := Option.ne_none_iff_exists'.mp h
  refine ⟨memRead_answers (by simp [readable, regionOf_sfr s.device hr]), fun v => ?_⟩
  split
  next ha => exact ha ▸ memWrite_adcr v s
  next ha =>
    have hne : r ≠ .adcr := fun e => ha (sfrAt_adcr.mp (e ▸ hr))
    exact ⟨_, memWrite_sfr v s hr hne⟩

end Accesses

/-- Settles O11, region by region. -/
theorem accessMap : Obligations.AccessMap := fun _ _ =>
  ⟨fun h => ⟨memRead_ram h, fun v => memWrite_ram v h⟩, fun h => ⟨memRead_rom h, fun v => memWrite_rom v h⟩,
    fun h => access_hole (regionOf_hole h), fun ⟨hlow, hhigh, hocc⟩ => access_sfr fun hnone => by
      rcases sfrAt_eq_none.mp hnone with h | h | h
      · omega
      · omega
      · exact hocc h⟩

/-! ## Fetches, and the direct page with G = 1 -/

section Forbidden

variable {a : Word} {s : State}

theorem memFetch_rom (h : s.device.romBase ≤ a.toNat) : memFetch a s = .ok (s.romByte a) s := by
  simp only [memFetch, regionOf_rom h]

theorem memFetch_faults (h : a.toNat < s.device.romBase) : memFetch a s = .fault (.fetchOutsideProgramMemory a) := by
  have hne := regionOf_ne_rom h
  unfold memFetch
  split
  next hrom => exact absurd hrom hne
  all_goals rfl

/-- With G = 1 no direct-page address is formed (R106). -/
theorem directPage_set (d : Byte) (hg : flag .g s.psw = true) : directPage d s = .fault .directPageWithGSet :=
  if_pos hg

theorem readPair_set (d : Byte) (hg : flag .g s.psw = true) : readPair d s = .fault .directPageWithGSet := by
  rw [readPair, directPage_set d hg, Res.bind_fault]

end Forbidden

/-- Settles O13: the program memory is the region fetches go to, and every direct-page form begins with `DP`. -/
theorem forbiddenFetchAndDirectPage : Obligations.ForbiddenFetchAndDirectPage := by
  refine ⟨fun a s => ⟨memFetch_rom, memFetch_faults⟩, fun s d w hg => ⟨?_, rfl, rfl⟩⟩
  have hindY : effectiveAddress (.indY d) s = .fault .directPageWithGSet := by
    rw [effectiveAddress, readPair_set d hg, Res.bind_fault]
  simp only [List.forall_mem_cons]
  exact ⟨directPage_set _ hg, directPage_set _ hg, directPage_set _ hg, directPage_set _ hg, readPair_set _ hg, hindY,
    nofun⟩

end Sys2Proof.Machine
end

section
/-! Decimal adjustment, multiplication and division (spec/40_arith_logic.md R151, R152, R155, R160). -/

namespace Sys2Proof.Machine

/-! ## Decimal adjustment -/

/-- A decimal adjustment always completes, with what its function gives. -/
theorem adjustAccumulator_answers (f : Byte → Bool → Bool → Byte × Bool) (s : State) :
    let d := f s.a (flag .c s.psw) (flag .h s.psw)
    ∃ p, adjustAccumulator f s = .next { s with a := d.1, psw := p } ∧ nzcOnly d.1 d.2 s.psw p :=
  ⟨_, rfl, nzcOnly_setNZ8 _ _ _⟩

/-- The adjustment after an addition, by the digits it corrects. -/
theorem daaAdjust_eq {a : Byte} {c h high low : Bool} (hhigh : (c || decide (a.toNat > 0x99)) = high)
    (hlow : (h || decide (a.toNat % 16 > 9)) = low) :
    (daaAdjust a c h).1.toNat = (a.toNat + (96 * high.toNat + 6 * low.toNat)) % 256 ∧
      (daaAdjust a c h).2 = high := by
  refine ⟨?_, hhigh⟩
  simp only [daaAdjust, hhigh, hlow]
  have := a.isLt
  cases high <;> cases low <;> simp [Nat.add_assoc, Nat.mod_eq_of_lt this]

/-- The adjustment after a subtraction, by the digits it corrects; subtracting a correction is adding its complement. -/
theorem dasAdjust_eq {a : Byte} {c h high low : Bool} (hhigh : (!c || decide (a.toNat > 0x99)) = high)
    (hlow : (!h || decide (a.toNat % 16 > 9)) = low) :
    (dasAdjust a c h).1.toNat = (a.toNat + (160 * high.toNat + 250 * low.toNat)) % 256 ∧
      (dasAdjust a c h).2 = !high := by
  refine ⟨?_, by rw [dasAdjust, hhigh]⟩
  simp only [dasAdjust, hhigh, hlow, sub_eq_add_neg]
  have := a.isLt
  cases high <;> cases low <;> simp [Nat.add_assoc, Nat.mod_eq_of_lt this]

/-- A correction counts once where its condition holds. -/
theorem toNat_decide_cases (p : Prop) [Decidable p] :
    (p ∧ (decide p).toNat = 1) ∨ (¬ p ∧ (decide p).toNat = 0) := by
  by_cases h : p <;> simp [h]

/-- Two decimal digits make a packed-BCD byte. -/
theorem bcd_of_digits {v : Byte} {hi lo : Nat} (hv : v.toNat = 16 * hi + lo) (hhi : hi < 10) (hlo : lo < 10) :
    bcd v ∧ bcdValue v = 10 * hi + lo := by
  unfold bcd bcdValue
  omega

theorem add8_toNat (a m : Byte) (c : Bool) : (add8 a m c).r.toNat = (a.toNat + m.toNat + c.toNat) % 256 :=
  BitVec.toNat_ofNat _ _

theorem sub8_toNat (a m : Byte) (c : Bool) :
    (sub8 a m c).r.toNat = (a.toNat + (256 - m.toNat - (!c).toNat)) % 256 := by
  have := m.isLt
  cases c <;> (simp [sub8_r, BitVec.toNat_sub]; omega)

section Digits

variable {a m : Byte}

/-- After the sum of two packed-BCD bytes a digit is corrected exactly where the decimal digit overflows. -/
theorem add8_corrections (c : Bool) (ha : bcd a) (hm : bcd m) :
    let x := add8 a m c
    let low := decide (9 < a.toNat % 16 + m.toNat % 16 + c.toNat)
    (x.c || decide (x.r.toNat > 0x99)) = decide (9 < a.toNat / 16 + m.toNat / 16 + low.toNat) ∧
      (x.h || decide (x.r.toNat % 16 > 9)) = low := by
  obtain ⟨halo, hahi⟩ := ha
  obtain ⟨hmlo, hmhi⟩ := hm
  have hc := c.toNat_le
  have hlow := toNat_decide_cases (9 < a.toNat % 16 + m.toNat % 16 + c.toNat)
  simp only [add8, BitVec.toNat_ofNat, ← Bool.decide_or, decide_eq_decide]
  omega

/-- After the sum of two packed-BCD bytes the adjustment of R151 gives its decimal digits. -/
theorem daaAdjust_add8 (c : Bool) (ha : bcd a) (hm : bcd m) :
    let d := daaAdjust (add8 a m c).r (add8 a m c).c (add8 a m c).h
    bcd d.1 ∧ bcdValue d.1 + 100 * d.2.toNat = bcdValue a + bcdValue m + c.toNat := by
  obtain ⟨hhigh, hlow⟩ := add8_corrections c ha hm
  obtain ⟨hvalue, hcarry⟩ := daaAdjust_eq hhigh hlow
  obtain ⟨halo, hahi⟩ := ha
  obtain ⟨hmlo, hmhi⟩ := hm
  have hc := c.toNat_le
  rw [add8_toNat, Nat.mod_add_mod] at hvalue
  have hl := toNat_decide_cases (9 < a.toNat % 16 + m.toNat % 16 + c.toNat)
  set low := decide (9 < a.toNat % 16 + m.toNat % 16 + c.toNat)
  have hh := toNat_decide_cases (9 < a.toNat / 16 + m.toNat / 16 + low.toNat)
  set high := decide (9 < a.toNat / 16 + m.toNat / 16 + low.toNat)
  obtain ⟨hbcd, hdigits⟩ := bcd_of_digits (hi := a.toNat / 16 + m.toNat / 16 + low.toNat - 10 * high.toNat)
    (lo := a.toNat % 16 + m.toNat % 16 + c.toNat - 10 * low.toNat) (hvalue.trans (by omega)) (by omega) (by omega)
  refine ⟨hbcd, ?_⟩
  rw [hdigits, hcarry]
  unfold bcdValue
  omega

/-- After the difference of two packed-BCD bytes a digit is corrected exactly where it borrows. -/
theorem sub8_corrections (c : Bool) (ha : bcd a) (hm : bcd m) :
    let x := sub8 a m c
    (!x.c || decide (x.r.toNat > 0x99)) = decide (a.toNat < m.toNat + (!c).toNat) ∧
      (!x.h || decide (x.r.toNat % 16 > 9)) = decide (a.toNat % 16 < m.toNat % 16 + (!c).toNat) := by
  obtain ⟨halo, hahi⟩ := ha
  obtain ⟨hmlo, hmhi⟩ := hm
  have hc := (!c).toNat_le
  simp only [sub8_c, sub8_h, sub8_toNat, ← decide_not, ← Bool.decide_or, decide_eq_decide]
  omega

/-- After the difference of two packed-BCD bytes the adjustment of R152 gives its decimal digits, modulo 100. -/
theorem dasAdjust_sub8 (c : Bool) (ha : bcd a) (hm : bcd m) :
    let d := dasAdjust (sub8 a m c).r (sub8 a m c).c (sub8 a m c).h
    bcd d.1 ∧ bcdValue d.1 + bcdValue m + (!c).toNat = bcdValue a + 100 * (!d.2).toNat := by
  obtain ⟨hhigh, hlow⟩ := sub8_corrections c ha hm
  obtain ⟨hvalue, hcarry⟩ := dasAdjust_eq hhigh hlow
  obtain ⟨halo, hahi⟩ := ha
  obtain ⟨hmlo, hmhi⟩ := hm
  have hc := (!c).toNat_le
  rw [sub8_toNat, Nat.mod_add_mod] at hvalue
  have hl := toNat_decide_cases (a.toNat % 16 < m.toNat % 16 + (!c).toNat)
  set low := decide (a.toNat % 16 < m.toNat % 16 + (!c).toNat)
  have hh := toNat_decide_cases (a.toNat < m.toNat + (!c).toNat)
  set high := decide (a.toNat < m.toNat + (!c).toNat)
  obtain ⟨hbcd, hdigits⟩ := bcd_of_digits (hi := 10 * high.toNat + a.toNat / 16 - m.toNat / 16 - low.toNat)
    (lo := 10 * low.toNat + a.toNat % 16 - m.toNat % 16 - (!c).toNat) (hvalue.trans (by omega)) (by omega) (by omega)
  refine ⟨hbcd, ?_⟩
  rw [hdigits, hcarry, Bool.not_not]
  unfold bcdValue
  omega

end Digits

/-- What a decimal adjustment reads after an addition or a subtraction of an immediate. -/
theorem accumulate_imm_sum {f : Byte → Byte → Byte → Byte × Byte} {x : Sum 8} {m : Byte} {s t : State}
    (hf : f s.a m s.psw = (x.r, writeSum8 x s.psw)) (h : accumulate f (.imm m) s = .next t) :
    t.a = x.r ∧ flag .c t.psw = x.c ∧ flag .h t.psw = x.h := by
  cases h
  obtain ⟨-, -, hc, hh, -⟩ := writeSum8_flags x s.psw
  exact ⟨congrArg Prod.fst hf, by simpa [hf] using hc, by simpa [hf] using hh⟩

/-- Settles O23: the adjustment is one function of A, C and H, and the default ones correct the digits that ADC and SBC
leave outside 0 to 9. -/
theorem decimalAdjust : Obligations.DecimalAdjust := by
  refine ⟨adjustAccumulator_answers daaFunction, adjustAccumulator_answers dasFunction, fun s t m ha hm h => ?_,
    fun s t m ha hm h => ?_⟩
  · obtain ⟨hr, hc, hh⟩ := accumulate_imm_sum (f := adcByte) rfl h
    rw [hr, hc, hh]
    exact daaAdjust_add8 (flag .c s.psw) ha hm
  · obtain ⟨hr, hc, hh⟩ := accumulate_imm_sum (f := sbcByte) rfl h
    rw [hr, hc, hh]
    exact dasAdjust_sub8 (flag .c s.psw) ha hm

/-! ## Multiplication -/

section Product

variable {p : Nat} (hp : p < 65536)

include hp

/-- The bytes of a product that MUL leaves in A and Y. -/
theorem product_bytes :
    loByte (BitVec.ofNat 16 p) = BitVec.ofNat 8 (p % 256) ∧
      hiByte (BitVec.ofNat 16 p) = BitVec.ofNat 8 (p / 256) := by
  constructor <;> apply BitVec.eq_of_toNat_eq
  · simp [loByte_toNat]
  · simp only [hiByte_toNat, BitVec.toNat_ofNat]
    omega

theorem product_msb : (BitVec.ofNat 16 p).msb = decide (32768 ≤ p) := by
  simp [BitVec.msb_eq_decide, Nat.mod_eq_of_lt hp]

/-- The two readings of Z after MUL, in numbers (R160). -/
theorem mulZero_eq :
    mulZero (BitVec.ofNat 16 p) .product = decide (p = 0) ∧
      mulZero (BitVec.ofNat 16 p) .highByte = decide (p < 256) := by
  simp only [mulZero, (product_bytes hp).2, beq_eq_decide, decide_eq_decide, ← BitVec.toNat_inj, BitVec.toNat_ofNat,
    BitVec.ofNat_eq_ofNat]
  omega

/-- Z of MUL as it is settled: by the product alone where the two readings agree, else by `MUL_Z_WIDTH`. -/
theorem mulZero_settled (free : Bool) :
    let zero := settle (mulZero (BitVec.ofNat 16 p)) .product .highByte Config.mulZWidth free
    (p = 0 → zero = true) ∧ (256 ≤ p → zero = false) ∧
      (0 < p ∧ p < 256 → (Config.mulZWidth = some .product → zero = false) ∧
        (Config.mulZWidth = some .highByte → zero = true)) := by
  obtain ⟨hfirst, hsecond⟩ := settle_picked (mulZero (BitVec.ofNat 16 p)) .product .highByte Config.mulZWidth free
  obtain ⟨hproduct, hhigh⟩ := mulZero_eq hp
  rw [hproduct, hhigh] at hfirst
  rw [hhigh] at hsecond
  refine ⟨fun h => ?_, fun h => ?_, fun ⟨hpos, hlt⟩ => ⟨fun hpick => ?_, fun hpick => ?_⟩⟩
  · exact (hfirst (.inr (by simp [h]))).trans (decide_eq_true h)
  · exact (hfirst (.inr (decide_eq_decide.mpr (by omega)))).trans (decide_eq_false (by omega))
  · exact (hfirst (.inl hpick)).trans (decide_eq_false (by omega))
  · exact (hsecond hpick).trans (decide_eq_true hlt)

end Product

/-- MUL writes N and Z and then YA; Z in numbers. -/
theorem exec_mul (s : State) : ∃ zero k, exec .mul s = .next (((s.withPsw
      (setFlag .z zero (setFlag .n (BitVec.ofNat 16 (s.y.toNat * s.a.toNat)).msb s.psw))).setYA
        (BitVec.ofNat 16 (s.y.toNat * s.a.toNat))).spend k) ∧
    (s.y.toNat * s.a.toNat = 0 → zero = true) ∧ (256 ≤ s.y.toNat * s.a.toNat → zero = false) ∧
      (0 < s.y.toNat * s.a.toNat ∧ s.y.toNat * s.a.toNat < 256 →
        (Config.mulZWidth = some .product → zero = false) ∧ (Config.mulZWidth = some .highByte → zero = true)) :=
  ⟨_, _, rfl, mulZero_settled (Nat.mul_lt_mul'' s.y.isLt s.a.isLt) _⟩

/-- N and Z set one after the other. -/
theorem setNZ_flags (n z : Bool) (p : Byte) :
    flag .n (setFlag .z z (setFlag .n n p)) = n ∧ flag .z (setFlag .z z (setFlag .n n p)) = z ∧
      flagsKept [.n, .z] p (setFlag .z z (setFlag .n n p)) :=
  ⟨by simp, by simp, flagsKept_setFlag (by decide) (flagsKept_setFlag (by decide) (flagsKept_refl _ _))⟩

/-- Settles O24: the product of two bytes fits in 16 bits. -/
theorem multiply : Obligations.Multiply := by
  intro s
  have hp : s.y.toNat * s.a.toNat < 65536 := Nat.mul_lt_mul'' s.y.isLt s.a.isLt
  obtain ⟨zero, k, hexec, hzero⟩ := exec_mul s
  obtain ⟨hlo, hhi⟩ := product_bytes hp
  obtain ⟨hn, hz, hkept⟩ := setNZ_flags (BitVec.ofNat 16 (s.y.toNat * s.a.toNat)).msb zero s.psw
  rw [← hlo, ← hhi, ← product_msb hp]
  refine ⟨setFlag .z zero (setFlag .n _ s.psw), _, hexec, onlyCpu_intro _ s k, hn, hkept, ?_⟩
  rwa [hz]

/-! ## Division -/

theorem State.ya_toNat (s : State) : s.ya.toNat = s.y.toNat * 256 + s.a.toNat := by
  rw [State.ya, wordOf_toNat, Nat.mul_comm]

/-- V, N, Z and H after a division whose quotient fits. -/
theorem divFits_flags {q : Nat} (hq : q < 256) (h : Bool) (p : Byte) :
    let psw := setFlag .h h (setNZ8 (BitVec.ofNat 8 q) (setFlag .v false p))
    flag .v psw = false ∧ flag .n psw = decide (128 ≤ q) ∧ flag .z psw = decide (q = 0) ∧
      flagsKept [.n, .v, .h, .z] p psw := by
  refine ⟨by simp, by simp [msb_eq, Nat.mod_eq_of_lt hq], ?_, flagsKept_setFlag (by decide) <|
    flagsKept_setNZ8 (by decide) (by decide) <| flagsKept_setFlag (by decide) (flagsKept_refl _ _)⟩
  simp [beq_eq_decide, ← BitVec.toNat_inj, Nat.mod_eq_of_lt hq]

/-- The flags after a division whose quotient does not fit. -/
theorem divOpen_flags (r : DivResult) (p : Byte) :
    let psw := setFlag .v true (setFlag .h r.h (setFlag .z r.z (setFlag .n r.n p)))
    flag .v psw = true ∧ flag .n psw = r.n ∧ flag .h psw = r.h ∧ flag .z psw = r.z ∧
      flagsKept [.n, .v, .h, .z] p psw :=
  ⟨by simp, by simp, by simp, by simp, flagsKept_setFlag (by decide) <| flagsKept_setFlag (by decide) <|
    flagsKept_setFlag (by decide) <| flagsKept_setFlag (by decide) (flagsKept_refl _ _)⟩

section Quotient

variable {s : State}

/-- DIV where the quotient fits in 8 bits. -/
theorem div_fits (hx : s.x ≠ 0) (hy : s.y.toNat < s.x.toNat) :
    ∃ psw t, exec .div s = .next t ∧
      onlyCpu { s.cpu with
        a := BitVec.ofNat 8 ((s.y.toNat * 256 + s.a.toNat) / s.x.toNat),
        y := BitVec.ofNat 8 ((s.y.toNat * 256 + s.a.toNat) % s.x.toNat), psw := psw } s t ∧
      (s.y.toNat * 256 + s.a.toNat) / s.x.toNat < 256 ∧ flag .v psw = false ∧
      flag .n psw = decide (128 ≤ (s.y.toNat * 256 + s.a.toNat) / s.x.toNat) ∧
      flag .z psw = decide ((s.y.toNat * 256 + s.a.toNat) / s.x.toNat = 0) ∧
      flagsKept [.n, .v, .h, .z] s.psw psw := by
  have ha := s.a.isLt
  have hq : (s.y.toNat * 256 + s.a.toNat) / s.x.toNat < 256 := Nat.div_lt_of_lt_mul (by omega)
  have hexec : exec .div s = _ := if_pos (show s.x ≠ 0 ∧ s.y.toNat < s.x.toNat from ⟨hx, hy⟩)
  rw [← State.ya_toNat] at hq ⊢
  exact ⟨_, _, hexec, onlyCpu_intro _ s 1, hq, divFits_flags hq _ _⟩

/-- DIV where X = 0 or the quotient does not fit. -/
theorem div_open (h : s.x = 0 ∨ s.x.toNat ≤ s.y.toNat) :
    ∃ a y psw t, exec .div s = .next t ∧
      onlyCpu { s.cpu with a := a, y := y, psw := psw } s t ∧ flagsKept [.n, .v, .h, .z] s.psw psw ∧
      flag .v psw = true ∧
      ∀ f, Config.divFn = some f →
        (f (s.y ++ s.a) s.x) = ⟨a, y, flag .n psw, flag .h psw, flag .z psw⟩ := by
  have hexec : exec .div s = _ := if_neg (show ¬ (s.x ≠ 0 ∧ s.y.toNat < s.x.toNat) by
    rintro ⟨hx, hy⟩
    exact h.elim hx (by omega))
  obtain ⟨k, hk⟩ := divOpen_ok s
  obtain ⟨hv, hn, hh, hz, hkept⟩ := divOpen_flags (divOpen s).1 s.psw
  refine ⟨(divOpen s).1.a, (divOpen s).1.y, _, _, hexec, ?_, hkept, hv, fun f hf => ?_⟩
  · rw [hk]
    exact onlyCpu_intro _ s k
  · rw [hn, hh, hz, divOpen_supplied s hf]
    rfl

end Quotient

/-- Settles O25: the quotient of YA by X needs no more than 8 bits exactly where Y is below X. -/
theorem divide : Obligations.Divide := fun _ => ⟨div_fits, div_open⟩

end Sys2Proof.Machine
end

section
/-! Branches: on a flag, on a bit or a comparison, and on a count (spec/44_branch.md). -/

namespace Sys2Proof.Machine

/-! ## Where a branch leaves PC -/

/-- A branch taken adds the signed displacement to PC, modulo 65536; one not taken changes nothing (R270). -/
theorem branchIf_eq (taken : Bool) (rel : Byte) (s : State) : branchIf taken rel s =
    s.withPc (if taken then BitVec.ofInt 16 ((s.pc.toNat : Int) + rel.toInt) else s.pc) := by
  cases taken with
  | false => rfl
  | true => exact congrArg s.withPc (add_sext16 s.pc rel)

theorem branchIf_not (taken : Bool) (rel : Byte) (s : State) : branchIf (!taken) rel s =
    s.withPc (if taken then s.pc else BitVec.ofInt 16 ((s.pc.toNat : Int) + rel.toInt)) := by
  rw [branchIf_eq]
  cases taken <;> rfl

/-- A branch on a count goes where the count is not 0 (R287). -/
theorem branchIf_ne_zero (v rel : Byte) (s : State) : branchIf (v != 0) rel s =
    s.withPc (if v = 0 then s.pc else BitVec.ofInt 16 ((s.pc.toNat : Int) + rel.toInt)) := by
  by_cases h : v = 0 <;> simp [branchIf_eq, h]

/-- Settles O36: a branch on a flag reads nothing, so it always completes. -/
theorem flagBranches : Obligations.FlagBranches := by
  intro i cond rel s hi
  rw [exec_branch s hi, branchIf_eq]

/-- Settles O37: the read of the byte uses free values only, so the branch shows in PC alone. -/
theorem bitAndCompareBranches : Obligations.BitAndCompareBranches := by
  refine ⟨fun bit rel s => ⟨congrArg Host.Outcome.next (branchIf_eq _ rel s),
    congrArg Host.Outcome.next (branchIf_not _ rel s)⟩, fun i cond o rel s hi => ?_⟩
  rw [exec_byteBranch s hi]
  refine ⟨fun m s1 h => ?_, fun e h => by rw [h, Res.done_fault]⟩
  obtain ⟨k, rfl⟩ := readSource_ok h
  rw [h, Res.done_ok, branchIf_eq]
  exact ⟨_, rfl, onlyCpu_intro _ s k⟩

/-! ## DBNE on a byte of the direct page -/

section Count

variable {d : Byte} {s : State}

theorem exec_dbneDp (rel : Byte) (hg : flag .g s.psw = false) :
    exec (.dbneDp d rel) s =
      (rmwByte (zext16 d) (fun v => v - 1) s).done fun v s1 => branchIf (v - 1 != 0) rel s1 := by
  simp only [exec, execDbneDp, effectiveAddress, directPage_clear hg, Res.bind_ok]

theorem dbneDp_answers (rel : Byte) (hg : flag .g s.psw = false) (hm : modifiable s.device (zext16 d) = true) :
    ∃ v s2 pc, rewrites (zext16 d) v (v - 1) s s2 ∧ exec (.dbneDp d rel) s = .next (s2.withPc pc) ∧
      pc = (if v - 1 = 0 then s.pc else BitVec.ofInt 16 ((s.pc.toNat : Int) + rel.toInt)) ∧
      storedOnly (zext16 d) (v - 1) { s.cpu with pc := pc } s (s2.withPc pc) := by
  obtain ⟨v, s2, hrmw, hrewrites⟩ := rmwByte_answers (fun v => v - 1) hm
  obtain ⟨hcpu, -⟩ := rewrites_kept hrewrites
  have hpc : s2.pc = s.pc := congrArg Cpu.pc hcpu
  have hstored : storedOnly (zext16 d) (v - 1) s.cpu s s2 := rewrites_stored (k := 0) hrewrites
  refine ⟨v, s2, _, hrewrites, ?_, rfl, storedOnly_withCpu hstored fun c => { c with pc := _ }⟩
  rw [exec_dbneDp rel hg, hrmw, Res.done_ok, branchIf_ne_zero, hpc]

theorem dbneDp_faults (rel : Byte) (h : flag .g s.psw = true ∨ modifiable s.device (zext16 d) = false) :
    ∃ e, exec (.dbneDp d rel) s = .fault e := by
  cases hg : flag .g s.psw with
  | true =>
    exact ⟨.directPageWithGSet, by simp only [exec, execDbneDp, effectiveAddress, directPage_set d hg, Res.bind_fault,
      Res.done_fault]⟩
  | false =>
    obtain ⟨e, he⟩ := rmwByte_faults (fun v => v - 1) (h.resolve_left (by simp [hg]))
    exact ⟨e, by rw [exec_dbneDp rel hg, he, Res.done_fault]⟩

end Count

/-- Settles O38: the count is in Y, or one read-modify-write of the byte. -/
theorem decrementAndBranch : Obligations.DecrementAndBranch :=
  ⟨fun rel s => congrArg Host.Outcome.next (branchIf_ne_zero (s.y - 1) rel { s with y := s.y - 1 }),
    fun _ rel _ => ⟨dbneDp_answers rel, dbneDp_faults rel⟩⟩

end Sys2Proof.Machine
end
